-- ==== Sys2Proof/Word.lean ====
section
/-! DEFINITION. The words of the machine (spec/00_scope.md R8, R13). -/

namespace Sys2Proof

/-- A byte, the unit of memory (00_scope.md R8). -/
abbrev Byte := BitVec 8

/-- A halfword: 16 bits (00_scope.md R8). -/
abbrev Half := BitVec 16

/-- A word, a register's contents or an address: 32 bits (00_scope.md R8). -/
abbrev Word := BitVec 32

end Sys2Proof
end

