-- ==== Sys2Proof/Config.lean ====
section
/-! DEFINITION. The free values: what the spec leaves open after an instruction that goes on.
None has a body, so nothing can be proved of the value one takes. The argument `n` is the number of
the draw (`State.draws`), so that each draw may give another value. -/

namespace Sys2Proof.Config

/-- C after MULS, MLAS and the Thumb MUL (43 R191, R192; 47 R293; 92 D18). Log 12. -/
opaque mulCarry (n : Nat) : Bool

/-- C after a long multiply with S = 1 (43 R193; 92 D18). Log 12. -/
opaque longCarry (n : Nat) : Bool

/-- V after a long multiply with S = 1 (43 R193; 92 D18). Log 12. -/
opaque longOverflow (n : Nat) : Bool

/-- Bits 27:8 of a status register as MRS reads them, `held` being what the register holds there
(10_state.md R46; 92 D16). Log 13. -/
opaque reservedRead (n : Nat) (held : BitVec 20) : BitVec 20

/-- r14_svc after a reset of a running machine (70 R400). Log 14. -/
opaque resetLink (n : Nat) : Word

/-- SPSR_svc after a reset of a running machine (70 R400). Log 14. -/
opaque resetStatus (n : Nat) : Word

/-- Which contents of a location stored to inside the prefetch window are executed: 0 the new
ones, 1 those before the last instruction's stores, 2 those before the last two instructions'
stores (20_memory.md R81; 70 R414). Log 15. -/
opaque prefetchView (n : Nat) : Fin 3

/-- The word MCR sends for Rd = 15 (46 R256). Log 28. -/
opaque sentPc (n : Nat) : Word

end Sys2Proof.Config
end

