-- ==== Sys2Proof/Syntax.lean ====
section
/-! DEFINITION. The instructions: one constructor for each row of spec/opcode_table.json, and one
for the Thumb halfwords of 30_encoding.md R118 items 2 and 3, which have no row and trap (R351). -/

namespace Sys2Proof

/-- A register number, four bits of an encoding: r0 to r15. -/
abbrev Reg := BitVec 4

/-- A register number of three bits: r0 to r7 (30_encoding.md R110). -/
abbrev LowReg := BitVec 3

/-- The conditions of 30_encoding.md R93. The field value 1111 is none of them (R94). -/
inductive Cond where
  | eq | ne | cs | cc | mi | pl | vs | vc | hi | ls | ge | lt | gt | le | al
  deriving DecidableEq, Repr

/-- The shift types of 30_encoding.md R96. -/
inductive Shift where
  | lsl | lsr | asr | ror
  deriving DecidableEq, Repr

/-- The sixteen data-processing operations of 30_encoding.md R96. -/
inductive AluOp where
  | and | eor | sub | rsb | add | adc | sbc | rsc | tst | teq | cmp | cmn | orr | mov | bic | mvn
  deriving DecidableEq, Repr

/-- The instructions. `c` is the condition field of an ARM instruction; `s` the S bit; `p`, `u`,
`w` the P, U, W bits; the other arguments are the fields of the row. -/
inductive Instr where
  -- ARM: data processing
  /-- AND, immediate operand (41 R150, R141). -/
  | andImm (c : Cond) (s : Bool) (rn rd : Reg) (rot : BitVec 4) (imm : BitVec 8)
  /-- AND, register shifted by immediate (41 R150, R142). -/
  | andShImm (c : Cond) (s : Bool) (rn rd : Reg) (n : BitVec 5) (sh : Shift) (rm : Reg)
  /-- AND, register shifted by register (41 R150, R143). -/
  | andShReg (c : Cond) (s : Bool) (rn rd : Reg) (rs : Reg) (sh : Shift) (rm : Reg)
  /-- EOR, immediate operand (41 R151, R141). -/
  | eorImm (c : Cond) (s : Bool) (rn rd : Reg) (rot : BitVec 4) (imm : BitVec 8)
  /-- EOR, register shifted by immediate (41 R151, R142). -/
  | eorShImm (c : Cond) (s : Bool) (rn rd : Reg) (n : BitVec 5) (sh : Shift) (rm : Reg)
  /-- EOR, register shifted by register (41 R151, R143). -/
  | eorShReg (c : Cond) (s : Bool) (rn rd : Reg) (rs : Reg) (sh : Shift) (rm : Reg)
  /-- SUB, immediate operand (41 R152, R141). -/
  | subImm (c : Cond) (s : Bool) (rn rd : Reg) (rot : BitVec 4) (imm : BitVec 8)
  /-- SUB, register shifted by immediate (41 R152, R142). -/
  | subShImm (c : Cond) (s : Bool) (rn rd : Reg) (n : BitVec 5) (sh : Shift) (rm : Reg)
  /-- SUB, register shifted by register (41 R152, R143). -/
  | subShReg (c : Cond) (s : Bool) (rn rd : Reg) (rs : Reg) (sh : Shift) (rm : Reg)
  /-- RSB, immediate operand (41 R153, R141). -/
  | rsbImm (c : Cond) (s : Bool) (rn rd : Reg) (rot : BitVec 4) (imm : BitVec 8)
  /-- RSB, register shifted by immediate (41 R153, R142). -/
  | rsbShImm (c : Cond) (s : Bool) (rn rd : Reg) (n : BitVec 5) (sh : Shift) (rm : Reg)
  /-- RSB, register shifted by register (41 R153, R143). -/
  | rsbShReg (c : Cond) (s : Bool) (rn rd : Reg) (rs : Reg) (sh : Shift) (rm : Reg)
  /-- ADD, immediate operand (41 R154, R141). -/
  | addImm (c : Cond) (s : Bool) (rn rd : Reg) (rot : BitVec 4) (imm : BitVec 8)
  /-- ADD, register shifted by immediate (41 R154, R142). -/
  | addShImm (c : Cond) (s : Bool) (rn rd : Reg) (n : BitVec 5) (sh : Shift) (rm : Reg)
  /-- ADD, register shifted by register (41 R154, R143). -/
  | addShReg (c : Cond) (s : Bool) (rn rd : Reg) (rs : Reg) (sh : Shift) (rm : Reg)
  /-- ADC, immediate operand (41 R155, R141). -/
  | adcImm (c : Cond) (s : Bool) (rn rd : Reg) (rot : BitVec 4) (imm : BitVec 8)
  /-- ADC, register shifted by immediate (41 R155, R142). -/
  | adcShImm (c : Cond) (s : Bool) (rn rd : Reg) (n : BitVec 5) (sh : Shift) (rm : Reg)
  /-- ADC, register shifted by register (41 R155, R143). -/
  | adcShReg (c : Cond) (s : Bool) (rn rd : Reg) (rs : Reg) (sh : Shift) (rm : Reg)
  /-- SBC, immediate operand (41 R156, R141). -/
  | sbcImm (c : Cond) (s : Bool) (rn rd : Reg) (rot : BitVec 4) (imm : BitVec 8)
  /-- SBC, register shifted by immediate (41 R156, R142). -/
  | sbcShImm (c : Cond) (s : Bool) (rn rd : Reg) (n : BitVec 5) (sh : Shift) (rm : Reg)
  /-- SBC, register shifted by register (41 R156, R143). -/
  | sbcShReg (c : Cond) (s : Bool) (rn rd : Reg) (rs : Reg) (sh : Shift) (rm : Reg)
  /-- RSC, immediate operand (41 R157, R141). -/
  | rscImm (c : Cond) (s : Bool) (rn rd : Reg) (rot : BitVec 4) (imm : BitVec 8)
  /-- RSC, register shifted by immediate (41 R157, R142). -/
  | rscShImm (c : Cond) (s : Bool) (rn rd : Reg) (n : BitVec 5) (sh : Shift) (rm : Reg)
  /-- RSC, register shifted by register (41 R157, R143). -/
  | rscShReg (c : Cond) (s : Bool) (rn rd : Reg) (rs : Reg) (sh : Shift) (rm : Reg)
  /-- TST, immediate operand (41 R158, R141). -/
  | tstImm (c : Cond) (rn : Reg) (rot : BitVec 4) (imm : BitVec 8)
  /-- TST, register shifted by immediate (41 R158, R142). -/
  | tstShImm (c : Cond) (rn : Reg) (n : BitVec 5) (sh : Shift) (rm : Reg)
  /-- TST, register shifted by register (41 R158, R143). -/
  | tstShReg (c : Cond) (rn : Reg) (rs : Reg) (sh : Shift) (rm : Reg)
  /-- TEQ, immediate operand (41 R159, R141). -/
  | teqImm (c : Cond) (rn : Reg) (rot : BitVec 4) (imm : BitVec 8)
  /-- TEQ, register shifted by immediate (41 R159, R142). -/
  | teqShImm (c : Cond) (rn : Reg) (n : BitVec 5) (sh : Shift) (rm : Reg)
  /-- TEQ, register shifted by register (41 R159, R143). -/
  | teqShReg (c : Cond) (rn : Reg) (rs : Reg) (sh : Shift) (rm : Reg)
  /-- CMP, immediate operand (41 R160, R141). -/
  | cmpImm (c : Cond) (rn : Reg) (rot : BitVec 4) (imm : BitVec 8)
  /-- CMP, register shifted by immediate (41 R160, R142). -/
  | cmpShImm (c : Cond) (rn : Reg) (n : BitVec 5) (sh : Shift) (rm : Reg)
  /-- CMP, register shifted by register (41 R160, R143). -/
  | cmpShReg (c : Cond) (rn : Reg) (rs : Reg) (sh : Shift) (rm : Reg)
  /-- CMN, immediate operand (41 R161, R141). -/
  | cmnImm (c : Cond) (rn : Reg) (rot : BitVec 4) (imm : BitVec 8)
  /-- CMN, register shifted by immediate (41 R161, R142). -/
  | cmnShImm (c : Cond) (rn : Reg) (n : BitVec 5) (sh : Shift) (rm : Reg)
  /-- CMN, register shifted by register (41 R161, R143). -/
  | cmnShReg (c : Cond) (rn : Reg) (rs : Reg) (sh : Shift) (rm : Reg)
  /-- ORR, immediate operand (41 R162, R141). -/
  | orrImm (c : Cond) (s : Bool) (rn rd : Reg) (rot : BitVec 4) (imm : BitVec 8)
  /-- ORR, register shifted by immediate (41 R162, R142). -/
  | orrShImm (c : Cond) (s : Bool) (rn rd : Reg) (n : BitVec 5) (sh : Shift) (rm : Reg)
  /-- ORR, register shifted by register (41 R162, R143). -/
  | orrShReg (c : Cond) (s : Bool) (rn rd : Reg) (rs : Reg) (sh : Shift) (rm : Reg)
  /-- MOV, immediate operand (41 R163, R141). -/
  | movImm (c : Cond) (s : Bool) (rd : Reg) (rot : BitVec 4) (imm : BitVec 8)
  /-- MOV, register shifted by immediate (41 R163, R142). -/
  | movShImm (c : Cond) (s : Bool) (rd : Reg) (n : BitVec 5) (sh : Shift) (rm : Reg)
  /-- MOV, register shifted by register (41 R163, R143). -/
  | movShReg (c : Cond) (s : Bool) (rd : Reg) (rs : Reg) (sh : Shift) (rm : Reg)
  /-- BIC, immediate operand (41 R164, R141). -/
  | bicImm (c : Cond) (s : Bool) (rn rd : Reg) (rot : BitVec 4) (imm : BitVec 8)
  /-- BIC, register shifted by immediate (41 R164, R142). -/
  | bicShImm (c : Cond) (s : Bool) (rn rd : Reg) (n : BitVec 5) (sh : Shift) (rm : Reg)
  /-- BIC, register shifted by register (41 R164, R143). -/
  | bicShReg (c : Cond) (s : Bool) (rn rd : Reg) (rs : Reg) (sh : Shift) (rm : Reg)
  /-- MVN, immediate operand (41 R165, R141). -/
  | mvnImm (c : Cond) (s : Bool) (rd : Reg) (rot : BitVec 4) (imm : BitVec 8)
  /-- MVN, register shifted by immediate (41 R165, R142). -/
  | mvnShImm (c : Cond) (s : Bool) (rd : Reg) (n : BitVec 5) (sh : Shift) (rm : Reg)
  /-- MVN, register shifted by register (41 R165, R143). -/
  | mvnShReg (c : Cond) (s : Bool) (rd : Reg) (rs : Reg) (sh : Shift) (rm : Reg)
  -- ARM: status registers
  /-- MRS (42 R181); `r` chooses the SPSR. -/
  | mrs (c : Cond) (r : Bool) (rd : Reg)
  /-- MSR, register operand (42 R182); `mask` is f s x c. -/
  | msrReg (c : Cond) (r : Bool) (mask : BitVec 4) (rm : Reg)
  /-- MSR, immediate operand (42 R182). -/
  | msrImm (c : Cond) (r : Bool) (mask : BitVec 4) (rot : BitVec 4) (imm : BitVec 8)
  -- ARM: branch and exchange, multiplies, swaps
  /-- BX (40 R134). -/
  | bx (c : Cond) (rm : Reg)
  /-- MUL (43 R191). -/
  | mul (c : Cond) (s : Bool) (rd rs rm : Reg)
  /-- MLA (43 R192). -/
  | mla (c : Cond) (s : Bool) (rd rn rs rm : Reg)
  /-- UMULL (43 R194). -/
  | umull (c : Cond) (s : Bool) (rdHi rdLo rs rm : Reg)
  /-- UMLAL (43 R195). -/
  | umlal (c : Cond) (s : Bool) (rdHi rdLo rs rm : Reg)
  /-- SMULL (43 R196). -/
  | smull (c : Cond) (s : Bool) (rdHi rdLo rs rm : Reg)
  /-- SMLAL (43 R197). -/
  | smlal (c : Cond) (s : Bool) (rdHi rdLo rs rm : Reg)
  /-- SWP (46 R246). -/
  | swp (c : Cond) (rn rd rm : Reg)
  /-- SWPB (46 R246). -/
  | swpb (c : Cond) (rn rd rm : Reg)
  -- ARM: halfword and signed transfers
  /-- STRH, register offset (44 R216, R214). -/
  | strhReg (c : Cond) (p u w : Bool) (rn rd rm : Reg)
  /-- STRH, immediate offset, `off` = immedH : immedL (44 R216, R214). -/
  | strhImm (c : Cond) (p u w : Bool) (rn rd : Reg) (off : BitVec 8)
  /-- LDRH, register offset (44 R215, R214). -/
  | ldrhReg (c : Cond) (p u w : Bool) (rn rd rm : Reg)
  /-- LDRH, immediate offset, `off` = immedH : immedL (44 R215, R214). -/
  | ldrhImm (c : Cond) (p u w : Bool) (rn rd : Reg) (off : BitVec 8)
  /-- LDRSB, register offset (44 R217, R214). -/
  | ldrsbReg (c : Cond) (p u w : Bool) (rn rd rm : Reg)
  /-- LDRSB, immediate offset, `off` = immedH : immedL (44 R217, R214). -/
  | ldrsbImm (c : Cond) (p u w : Bool) (rn rd : Reg) (off : BitVec 8)
  /-- LDRSH, register offset (44 R218, R214). -/
  | ldrshReg (c : Cond) (p u w : Bool) (rn rd rm : Reg)
  /-- LDRSH, immediate offset, `off` = immedH : immedL (44 R218, R214). -/
  | ldrshImm (c : Cond) (p u w : Bool) (rn rd : Reg) (off : BitVec 8)
  -- ARM: single data transfers
  /-- STR, immediate offset, offset or pre-indexed (P = 1) (44 R206, R202). -/
  | strImm (c : Cond) (u w : Bool) (rn rd : Reg) (off : BitVec 12)
  /-- STR, immediate offset, post-indexed (P = 0, W = 0) (44 R206, R202). -/
  | strImmPost (c : Cond) (u : Bool) (rn rd : Reg) (off : BitVec 12)
  /-- STRT, immediate offset (P = 0, W = 1) (44 R211). -/
  | strtImm (c : Cond) (u : Bool) (rn rd : Reg) (off : BitVec 12)
  /-- STR, shifted register offset, offset or pre-indexed (P = 1) (44 R206, R202). -/
  | strReg (c : Cond) (u w : Bool) (rn rd : Reg) (n : BitVec 5) (sh : Shift) (rm : Reg)
  /-- STR, shifted register offset, post-indexed (P = 0, W = 0) (44 R206, R202). -/
  | strRegPost (c : Cond) (u : Bool) (rn rd : Reg) (n : BitVec 5) (sh : Shift) (rm : Reg)
  /-- STRT, shifted register offset (P = 0, W = 1) (44 R211). -/
  | strtReg (c : Cond) (u : Bool) (rn rd : Reg) (n : BitVec 5) (sh : Shift) (rm : Reg)
  /-- LDR, immediate offset, offset or pre-indexed (P = 1) (44 R205, R202). -/
  | ldrImm (c : Cond) (u w : Bool) (rn rd : Reg) (off : BitVec 12)
  /-- LDR, immediate offset, post-indexed (P = 0, W = 0) (44 R205, R202). -/
  | ldrImmPost (c : Cond) (u : Bool) (rn rd : Reg) (off : BitVec 12)
  /-- LDRT, immediate offset (P = 0, W = 1) (44 R210). -/
  | ldrtImm (c : Cond) (u : Bool) (rn rd : Reg) (off : BitVec 12)
  /-- LDR, shifted register offset, offset or pre-indexed (P = 1) (44 R205, R202). -/
  | ldrReg (c : Cond) (u w : Bool) (rn rd : Reg) (n : BitVec 5) (sh : Shift) (rm : Reg)
  /-- LDR, shifted register offset, post-indexed (P = 0, W = 0) (44 R205, R202). -/
  | ldrRegPost (c : Cond) (u : Bool) (rn rd : Reg) (n : BitVec 5) (sh : Shift) (rm : Reg)
  /-- LDRT, shifted register offset (P = 0, W = 1) (44 R210). -/
  | ldrtReg (c : Cond) (u : Bool) (rn rd : Reg) (n : BitVec 5) (sh : Shift) (rm : Reg)
  /-- STRB, immediate offset, offset or pre-indexed (P = 1) (44 R209, R202). -/
  | strbImm (c : Cond) (u w : Bool) (rn rd : Reg) (off : BitVec 12)
  /-- STRB, immediate offset, post-indexed (P = 0, W = 0) (44 R209, R202). -/
  | strbImmPost (c : Cond) (u : Bool) (rn rd : Reg) (off : BitVec 12)
  /-- STRBT, immediate offset (P = 0, W = 1) (44 R213). -/
  | strbtImm (c : Cond) (u : Bool) (rn rd : Reg) (off : BitVec 12)
  /-- STRB, shifted register offset, offset or pre-indexed (P = 1) (44 R209, R202). -/
  | strbReg (c : Cond) (u w : Bool) (rn rd : Reg) (n : BitVec 5) (sh : Shift) (rm : Reg)
  /-- STRB, shifted register offset, post-indexed (P = 0, W = 0) (44 R209, R202). -/
  | strbRegPost (c : Cond) (u : Bool) (rn rd : Reg) (n : BitVec 5) (sh : Shift) (rm : Reg)
  /-- STRBT, shifted register offset (P = 0, W = 1) (44 R213). -/
  | strbtReg (c : Cond) (u : Bool) (rn rd : Reg) (n : BitVec 5) (sh : Shift) (rm : Reg)
  /-- LDRB, immediate offset, offset or pre-indexed (P = 1) (44 R208, R202). -/
  | ldrbImm (c : Cond) (u w : Bool) (rn rd : Reg) (off : BitVec 12)
  /-- LDRB, immediate offset, post-indexed (P = 0, W = 0) (44 R208, R202). -/
  | ldrbImmPost (c : Cond) (u : Bool) (rn rd : Reg) (off : BitVec 12)
  /-- LDRBT, immediate offset (P = 0, W = 1) (44 R212). -/
  | ldrbtImm (c : Cond) (u : Bool) (rn rd : Reg) (off : BitVec 12)
  /-- LDRB, shifted register offset, offset or pre-indexed (P = 1) (44 R208, R202). -/
  | ldrbReg (c : Cond) (u w : Bool) (rn rd : Reg) (n : BitVec 5) (sh : Shift) (rm : Reg)
  /-- LDRB, shifted register offset, post-indexed (P = 0, W = 0) (44 R208, R202). -/
  | ldrbRegPost (c : Cond) (u : Bool) (rn rd : Reg) (n : BitVec 5) (sh : Shift) (rm : Reg)
  /-- LDRBT, shifted register offset (P = 0, W = 1) (44 R212). -/
  | ldrbtReg (c : Cond) (u : Bool) (rn rd : Reg) (n : BitVec 5) (sh : Shift) (rm : Reg)
  /-- The architecturally undefined instruction, with the bits it may hold (30 R104, 46 R258). -/
  | undefined (c : Cond) (hi : BitVec 20) (lo : BitVec 4)
  -- ARM: block transfers
  /-- LDM (1) (45 R234, R235). -/
  | ldm1 (c : Cond) (p u w : Bool) (rn : Reg) (list : BitVec 16)
  /-- LDM (2), r0 to r14 of the User bank (45 R237). -/
  | ldm2 (c : Cond) (p u w : Bool) (rn : Reg) (list : BitVec 15)
  /-- LDM (3), exception return; `list` holds r0 to r14, r15 is always in (45 R236). -/
  | ldm3 (c : Cond) (p u w : Bool) (rn : Reg) (list : BitVec 15)
  /-- STM (1) (45 R238). -/
  | stm1 (c : Cond) (p u w : Bool) (rn : Reg) (list : BitVec 16)
  /-- STM (2), the User bank (45 R239). -/
  | stm2 (c : Cond) (p u w : Bool) (rn : Reg) (list : BitVec 16)
  -- ARM: branches, coprocessor, software interrupt
  /-- B (40 R131). -/
  | b (c : Cond) (off : BitVec 24)
  /-- BL (40 R132). -/
  | bl (c : Cond) (off : BitVec 24)
  /-- STC (46 R255). -/
  | stc (c : Cond) (p u n w : Bool) (rn crd cp : Reg) (off : BitVec 8)
  /-- LDC (46 R254). -/
  | ldc (c : Cond) (p u n w : Bool) (rn crd cp : Reg) (off : BitVec 8)
  /-- CDP (46 R253). -/
  | cdp (c : Cond) (op1 : BitVec 4) (crn crd cp : Reg) (op2 : BitVec 3) (crm : Reg)
  /-- MCR (46 R256). -/
  | mcr (c : Cond) (op1 : BitVec 3) (crn rd cp : Reg) (op2 : BitVec 3) (crm : Reg)
  /-- MRC (46 R257). -/
  | mrc (c : Cond) (op1 : BitVec 3) (crn rd cp : Reg) (op2 : BitVec 3) (crm : Reg)
  /-- SWI (46 R250). -/
  | swi (c : Cond) (comment : BitVec 24)
  -- Thumb: formats 1 to 5
  /-- Thumb LSL Rd, Rs, #n (47 R266). -/
  | tLslImm (n : BitVec 5) (rs rd : LowReg)
  /-- Thumb LSR Rd, Rs, #n (47 R267). -/
  | tLsrImm (n : BitVec 5) (rs rd : LowReg)
  /-- Thumb ASR Rd, Rs, #n (47 R268). -/
  | tAsrImm (n : BitVec 5) (rs rd : LowReg)
  /-- Thumb ADD Rd, Rs, Rn (47 R270). -/
  | tAddReg (rn rs rd : LowReg)
  /-- Thumb SUB Rd, Rs, Rn (47 R271). -/
  | tSubReg (rn rs rd : LowReg)
  /-- Thumb ADD Rd, Rs, #imm3 (47 R272). -/
  | tAddImm3 (imm : BitVec 3) (rs rd : LowReg)
  /-- Thumb SUB Rd, Rs, #imm3 (47 R273). -/
  | tSubImm3 (imm : BitVec 3) (rs rd : LowReg)
  /-- Thumb MOV Rd, #imm (47 R275). -/
  | tMovImm8 (rd : LowReg) (imm : BitVec 8)
  /-- Thumb CMP Rd, #imm (47 R276). -/
  | tCmpImm8 (rd : LowReg) (imm : BitVec 8)
  /-- Thumb ADD Rd, #imm (47 R277). -/
  | tAddImm8 (rd : LowReg) (imm : BitVec 8)
  /-- Thumb SUB Rd, #imm (47 R278). -/
  | tSubImm8 (rd : LowReg) (imm : BitVec 8)
  /-- Thumb AND Rd, Rs (47 R280). -/
  | tAnd (rs rd : LowReg)
  /-- Thumb EOR Rd, Rs (47 R281). -/
  | tEor (rs rd : LowReg)
  /-- Thumb LSL Rd, Rs (47 R282). -/
  | tLslReg (rs rd : LowReg)
  /-- Thumb LSR Rd, Rs (47 R283). -/
  | tLsrReg (rs rd : LowReg)
  /-- Thumb ASR Rd, Rs (47 R284). -/
  | tAsrReg (rs rd : LowReg)
  /-- Thumb ADC Rd, Rs (47 R285). -/
  | tAdc (rs rd : LowReg)
  /-- Thumb SBC Rd, Rs (47 R286). -/
  | tSbc (rs rd : LowReg)
  /-- Thumb ROR Rd, Rs (47 R287). -/
  | tRorReg (rs rd : LowReg)
  /-- Thumb TST Rd, Rs (47 R288). -/
  | tTst (rs rd : LowReg)
  /-- Thumb NEG Rd, Rs (47 R289). -/
  | tNeg (rs rd : LowReg)
  /-- Thumb CMP Rd, Rs (47 R290). -/
  | tCmp (rs rd : LowReg)
  /-- Thumb CMN Rd, Rs (47 R291). -/
  | tCmn (rs rd : LowReg)
  /-- Thumb ORR Rd, Rs (47 R292). -/
  | tOrr (rs rd : LowReg)
  /-- Thumb MUL Rd, Rs (47 R293). -/
  | tMul (rs rd : LowReg)
  /-- Thumb BIC Rd, Rs (47 R294). -/
  | tBic (rs rd : LowReg)
  /-- Thumb MVN Rd, Rs (47 R295). -/
  | tMvn (rs rd : LowReg)
  /-- Thumb ADD on high registers, `d` = H1 : Rd, `s` = H2 : Rs (47 R297). -/
  | tAddHi (d s : Reg)
  /-- Thumb CMP on high registers (47 R298). -/
  | tCmpHi (d s : Reg)
  /-- Thumb MOV on high registers (47 R299). -/
  | tMovHi (d s : Reg)
  /-- Thumb BX, `s` = H2 : Rs (49 R349). -/
  | tBx (s : Reg)
  -- Thumb: formats 6 to 11
  /-- Thumb LDR Rd, [pc, #imm] (48 R311). -/
  | tLdrPc (rd : LowReg) (off : BitVec 8)
  /-- Thumb STR Rd, [Rb, Ro] (48 R312). -/
  | tStrReg (ro rb rd : LowReg)
  /-- Thumb STRB Rd, [Rb, Ro] (48 R313). -/
  | tStrbReg (ro rb rd : LowReg)
  /-- Thumb LDR Rd, [Rb, Ro] (48 R314). -/
  | tLdrReg (ro rb rd : LowReg)
  /-- Thumb LDRB Rd, [Rb, Ro] (48 R315). -/
  | tLdrbReg (ro rb rd : LowReg)
  /-- Thumb STRH Rd, [Rb, Ro] (48 R316). -/
  | tStrhReg (ro rb rd : LowReg)
  /-- Thumb LDSB Rd, [Rb, Ro] (48 R317). -/
  | tLdsbReg (ro rb rd : LowReg)
  /-- Thumb LDRH Rd, [Rb, Ro] (48 R318). -/
  | tLdrhReg (ro rb rd : LowReg)
  /-- Thumb LDSH Rd, [Rb, Ro] (48 R319). -/
  | tLdshReg (ro rb rd : LowReg)
  /-- Thumb STR Rd, [Rb, #imm] (48 R320). -/
  | tStrImm (off : BitVec 5) (rb rd : LowReg)
  /-- Thumb LDR Rd, [Rb, #imm] (48 R321). -/
  | tLdrImm (off : BitVec 5) (rb rd : LowReg)
  /-- Thumb STRB Rd, [Rb, #imm] (48 R322). -/
  | tStrbImm (off : BitVec 5) (rb rd : LowReg)
  /-- Thumb LDRB Rd, [Rb, #imm] (48 R323). -/
  | tLdrbImm (off : BitVec 5) (rb rd : LowReg)
  /-- Thumb STRH Rd, [Rb, #imm] (48 R324). -/
  | tStrhImm (off : BitVec 5) (rb rd : LowReg)
  /-- Thumb LDRH Rd, [Rb, #imm] (48 R325). -/
  | tLdrhImm (off : BitVec 5) (rb rd : LowReg)
  /-- Thumb STR Rd, [sp, #imm] (48 R326). -/
  | tStrSp (rd : LowReg) (off : BitVec 8)
  /-- Thumb LDR Rd, [sp, #imm] (48 R327). -/
  | tLdrSp (rd : LowReg) (off : BitVec 8)
  -- Thumb: formats 12 to 15
  /-- Thumb ADD Rd, pc, #imm (47 R302). -/
  | tAddPc (rd : LowReg) (off : BitVec 8)
  /-- Thumb ADD Rd, sp, #imm (47 R303). -/
  | tAddSp (rd : LowReg) (off : BitVec 8)
  /-- Thumb ADD sp, #imm (47 R305, S = 0). -/
  | tSpUp (off : BitVec 7)
  /-- Thumb ADD sp, #-imm (47 R305, S = 1). -/
  | tSpDown (off : BitVec 7)
  /-- Thumb PUSH; `lr` is the R bit (48 R330). -/
  | tPush (lr : Bool) (list : BitVec 8)
  /-- Thumb POP; `pc` is the R bit (48 R331). -/
  | tPop (pc : Bool) (list : BitVec 8)
  /-- Thumb STMIA Rb!, list (48 R333). -/
  | tStmia (rb : LowReg) (list : BitVec 8)
  /-- Thumb LDMIA Rb!, list (48 R334). -/
  | tLdmia (rb : LowReg) (list : BitVec 8)
  -- Thumb: formats 16 to 19
  /-- Thumb BEQ label (49 R341). -/
  | tBeq (off : BitVec 8)
  /-- Thumb BNE label (49 R341). -/
  | tBne (off : BitVec 8)
  /-- Thumb BCS label (49 R341). -/
  | tBcs (off : BitVec 8)
  /-- Thumb BCC label (49 R341). -/
  | tBcc (off : BitVec 8)
  /-- Thumb BMI label (49 R341). -/
  | tBmi (off : BitVec 8)
  /-- Thumb BPL label (49 R341). -/
  | tBpl (off : BitVec 8)
  /-- Thumb BVS label (49 R341). -/
  | tBvs (off : BitVec 8)
  /-- Thumb BVC label (49 R341). -/
  | tBvc (off : BitVec 8)
  /-- Thumb BHI label (49 R341). -/
  | tBhi (off : BitVec 8)
  /-- Thumb BLS label (49 R341). -/
  | tBls (off : BitVec 8)
  /-- Thumb BGE label (49 R341). -/
  | tBge (off : BitVec 8)
  /-- Thumb BLT label (49 R341). -/
  | tBlt (off : BitVec 8)
  /-- Thumb BGT label (49 R341). -/
  | tBgt (off : BitVec 8)
  /-- Thumb BLE label (49 R341). -/
  | tBle (off : BitVec 8)
  /-- The undefined Thumb instruction 0xDE00 to 0xDEFF, with its low byte (49 R351). -/
  | tUndefined (low : BitVec 8)
  /-- Thumb SWI (49 R343). -/
  | tSwi (comment : BitVec 8)
  /-- Thumb B label (49 R344). -/
  | tB (off : BitVec 11)
  /-- Thumb BL, first half (49 R346). -/
  | tBlPrefix (off : BitVec 11)
  /-- Thumb BL, second half (49 R347). -/
  | tBlSuffix (off : BitVec 11)
  /-- The undefined Thumb halfwords of R118 items 2 and 3, which have no row of their own (49 R351). -/
  | tUndefinedSpace (h : Half)
  deriving DecidableEq, Repr

/-- The data-processing instruction of an operation, immediate layout (30_encoding.md R96). A compare
has no `s` and no `rd`, a move no `rn`. -/
def Instr.dpImm (op : AluOp) (c : Cond) (s : Bool) (rn rd : Reg) (rot : BitVec 4) (imm : BitVec 8) : Instr :=
  match op with
  | .and => .andImm c s rn rd rot imm
  | .eor => .eorImm c s rn rd rot imm
  | .sub => .subImm c s rn rd rot imm
  | .rsb => .rsbImm c s rn rd rot imm
  | .add => .addImm c s rn rd rot imm
  | .adc => .adcImm c s rn rd rot imm
  | .sbc => .sbcImm c s rn rd rot imm
  | .rsc => .rscImm c s rn rd rot imm
  | .tst => .tstImm c rn rot imm
  | .teq => .teqImm c rn rot imm
  | .cmp => .cmpImm c rn rot imm
  | .cmn => .cmnImm c rn rot imm
  | .orr => .orrImm c s rn rd rot imm
  | .mov => .movImm c s rd rot imm
  | .bic => .bicImm c s rn rd rot imm
  | .mvn => .mvnImm c s rd rot imm

/-- The data-processing instruction of an operation, register shifted by immediate (R96). -/
def Instr.dpShImm (op : AluOp) (c : Cond) (s : Bool) (rn rd : Reg) (n : BitVec 5) (sh : Shift) (rm : Reg) : Instr :=
  match op with
  | .and => .andShImm c s rn rd n sh rm
  | .eor => .eorShImm c s rn rd n sh rm
  | .sub => .subShImm c s rn rd n sh rm
  | .rsb => .rsbShImm c s rn rd n sh rm
  | .add => .addShImm c s rn rd n sh rm
  | .adc => .adcShImm c s rn rd n sh rm
  | .sbc => .sbcShImm c s rn rd n sh rm
  | .rsc => .rscShImm c s rn rd n sh rm
  | .tst => .tstShImm c rn n sh rm
  | .teq => .teqShImm c rn n sh rm
  | .cmp => .cmpShImm c rn n sh rm
  | .cmn => .cmnShImm c rn n sh rm
  | .orr => .orrShImm c s rn rd n sh rm
  | .mov => .movShImm c s rd n sh rm
  | .bic => .bicShImm c s rn rd n sh rm
  | .mvn => .mvnShImm c s rd n sh rm

/-- The data-processing instruction of an operation, register shifted by register (R96). -/
def Instr.dpShReg (op : AluOp) (c : Cond) (s : Bool) (rn rd : Reg) (rs : Reg) (sh : Shift) (rm : Reg) : Instr :=
  match op with
  | .and => .andShReg c s rn rd rs sh rm
  | .eor => .eorShReg c s rn rd rs sh rm
  | .sub => .subShReg c s rn rd rs sh rm
  | .rsb => .rsbShReg c s rn rd rs sh rm
  | .add => .addShReg c s rn rd rs sh rm
  | .adc => .adcShReg c s rn rd rs sh rm
  | .sbc => .sbcShReg c s rn rd rs sh rm
  | .rsc => .rscShReg c s rn rd rs sh rm
  | .tst => .tstShReg c rn rs sh rm
  | .teq => .teqShReg c rn rs sh rm
  | .cmp => .cmpShReg c rn rs sh rm
  | .cmn => .cmnShReg c rn rs sh rm
  | .orr => .orrShReg c s rn rd rs sh rm
  | .mov => .movShReg c s rd rs sh rm
  | .bic => .bicShReg c s rn rd rs sh rm
  | .mvn => .mvnShReg c s rd rs sh rm

/-- The conditional Thumb branch of a condition (49 R341); there is none for "always". -/
def Instr.tBcond (c : Cond) (off : BitVec 8) : Option Instr :=
  match c with
  | .eq => some (.tBeq off)
  | .ne => some (.tBne off)
  | .cs => some (.tBcs off)
  | .cc => some (.tBcc off)
  | .mi => some (.tBmi off)
  | .pl => some (.tBpl off)
  | .vs => some (.tBvs off)
  | .vc => some (.tBvc off)
  | .hi => some (.tBhi off)
  | .ls => some (.tBls off)
  | .ge => some (.tBge off)
  | .lt => some (.tBlt off)
  | .gt => some (.tBgt off)
  | .le => some (.tBle off)
  | .al => none

end Sys2Proof
end

