-- ==== Sys2Proof/WellFormed.lean ====
section
/-! DEFINITION. Which terms of Instr are instructions. Every constructor but one takes exactly the
fields of its encoding, so that every term of it is an instruction; operand combinations the spec
calls UNPREDICTABLE are encodings too, and are refused by the meanings (log 18). -/

namespace Sys2Proof

/-- The Thumb halfwords of 30_encoding.md R118 items 2 and 3, with the ranges of 49 R351:
0xE800 to 0xEFFF; 0xB100 to 0xB3FF, 0xB600 to 0xBBFF, 0xBE00 to 0xBFFF. -/
def undefinedHalf (h : Half) : Bool :=
  let n := h.toNat
  (0xE800 ≤ n && n ≤ 0xEFFF) || (0xB100 ≤ n && n ≤ 0xB3FF) ||
    (0xB600 ≤ n && n ≤ 0xBBFF) || (0xBE00 ≤ n && n ≤ 0xBFFF)

/-- Whether a term of Instr is an instruction. -/
def Instr.wellFormed (i : Instr) : Bool :=
  match i with
  | .tUndefinedSpace h => undefinedHalf h
  | _ => true

end Sys2Proof
end

