-- ==== Sys2Proof/Decode.lean ====
section
/-! DEFINITION. The decoder (30_encoding.md R90 to R118), total on any word and any halfword and
rejecting by name, and the encoder, written from the same format rules. -/

namespace Sys2Proof

/-- An instruction as memory holds it: a word in ARM state, a halfword in Thumb state (R90). -/
inductive Code where
  | arm (w : Word)
  | thumb (h : Half)
  deriving DecidableEq, Repr

/-- Why a word or a halfword is no instruction. The spec calls all of these UNPREDICTABLE. -/
inductive DecodeError where
  /-- ARM, condition field 1111 (R94, D10). -/
  | conditionNever
  /-- ARM, a pattern of R117 items 2 to 5. -/
  | unallocatedArm
  /-- ARM, a should-be-zero or should-be-one field of an allocated instruction that is not so
  (R117 item 6). -/
  | shouldBeField
  /-- Thumb BX with H1 = 1 or with H[2:0] not 000 (R118 item 4). -/
  | thumbBxField
  deriving DecidableEq, Repr

/-! ## Fields -/

/-- The one bit of a Boolean field. -/
def bit (b : Bool) : BitVec 1 := BitVec.ofBool b

/-- The condition field of a condition (R93). -/
def Cond.bits (c : Cond) : BitVec 4 :=
  match c with
  | .eq => 0 | .ne => 1 | .cs => 2 | .cc => 3 | .mi => 4 | .pl => 5 | .vs => 6 | .vc => 7
  | .hi => 8 | .ls => 9 | .ge => 10 | .lt => 11 | .gt => 12 | .le => 13 | .al => 14

/-- The condition of a condition field; 1111 is none (R93, R94). -/
def condOfBits (x : BitVec 4) : Option Cond :=
  match x.toNat with
  | 0 => some .eq | 1 => some .ne | 2 => some .cs | 3 => some .cc
  | 4 => some .mi | 5 => some .pl | 6 => some .vs | 7 => some .vc
  | 8 => some .hi | 9 => some .ls | 10 => some .ge | 11 => some .lt
  | 12 => some .gt | 13 => some .le | 14 => some .al | _ => none

/-- The shift field of a shift type (R96). -/
def Shift.bits (x : Shift) : BitVec 2 :=
  match x with
  | .lsl => 0 | .lsr => 1 | .asr => 2 | .ror => 3

/-- The shift type of a shift field (R96). -/
def shiftOfBits (x : BitVec 2) : Shift :=
  match x.toNat with
  | 0 => .lsl | 1 => .lsr | 2 => .asr | _ => .ror

/-- The opcode field of a data-processing operation (R96). -/
def AluOp.bits (op : AluOp) : BitVec 4 :=
  match op with
  | .and => 0 | .eor => 1 | .sub => 2 | .rsb => 3 | .add => 4 | .adc => 5 | .sbc => 6 | .rsc => 7
  | .tst => 8 | .teq => 9 | .cmp => 10 | .cmn => 11 | .orr => 12 | .mov => 13 | .bic => 14 | .mvn => 15

/-- The data-processing operation of an opcode field (R96). -/
def aluOpOfBits (x : BitVec 4) : AluOp :=
  match x.toNat with
  | 0 => .and | 1 => .eor | 2 => .sub | 3 => .rsb | 4 => .add | 5 => .adc | 6 => .sbc | 7 => .rsc
  | 8 => .tst | 9 => .teq | 10 => .cmp | 11 => .cmn | 12 => .orr | 13 => .mov | 14 => .bic | _ => .mvn

/-- The four operations that write no register (R96). -/
def AluOp.compares (op : AluOp) : Bool := op == .tst || op == .teq || op == .cmp || op == .cmn

/-- The two operations that have no first operand (R96). -/
def AluOp.moves (op : AluOp) : Bool := op == .mov || op == .mvn

/-! ## ARM instructions -/

/-- The should-be-zero register fields of a data-processing word are zero: Rd of a compare, Rn of a
move (R96, R117 item 6). -/
def dpFieldsZero (w : Word) : Bool :=
  let op := aluOpOfBits (w.extractLsb' 21 4)
  if op.compares then w.extractLsb' 12 4 == 0 else if op.moves then w.extractLsb' 16 4 == 0 else true

/-- The control instruction space: opcode 10xx with S = 0 (R95). -/
def controlSpace (w : Word) : Bool := w.extractLsb' 23 2 == 0b10#2 && w.extractLsb' 20 1 == 0#1

/-- Data processing, immediate (R96). -/
def decodeDpImm (c : Cond) (w : Word) : Except DecodeError Instr :=
  if dpFieldsZero w then
    .ok (Instr.dpImm (aluOpOfBits (w.extractLsb' 21 4)) c (w.getLsbD 20) (w.extractLsb' 16 4)
      (w.extractLsb' 12 4) (w.extractLsb' 8 4) (w.extractLsb' 0 8))
  else .error .shouldBeField

/-- Data processing, register shifted by immediate (R96). -/
def decodeDpShImm (c : Cond) (w : Word) : Except DecodeError Instr :=
  if dpFieldsZero w then
    .ok (Instr.dpShImm (aluOpOfBits (w.extractLsb' 21 4)) c (w.getLsbD 20) (w.extractLsb' 16 4)
      (w.extractLsb' 12 4) (w.extractLsb' 7 5) (shiftOfBits (w.extractLsb' 5 2)) (w.extractLsb' 0 4))
  else .error .shouldBeField

/-- Data processing, register shifted by register (R96). -/
def decodeDpShReg (c : Cond) (w : Word) : Except DecodeError Instr :=
  if dpFieldsZero w then
    .ok (Instr.dpShReg (aluOpOfBits (w.extractLsb' 21 4)) c (w.getLsbD 20) (w.extractLsb' 16 4)
      (w.extractLsb' 12 4) (w.extractLsb' 8 4) (shiftOfBits (w.extractLsb' 5 2)) (w.extractLsb' 0 4))
  else .error .shouldBeField

/-- MRS and MSR with a register operand: bits 27:23 = 00010, bit 20 = 0, bit 4 = 0 (R98). -/
def decodeStatus (c : Cond) (w : Word) : Except DecodeError Instr :=
  if w.getLsbD 21 then
    if w.extractLsb' 12 4 == 0b1111#4 && w.extractLsb' 4 8 == 0#8 then
      .ok (.msrReg c (w.getLsbD 22) (w.extractLsb' 16 4) (w.extractLsb' 0 4))
    else .error .shouldBeField
  else if w.extractLsb' 16 4 == 0b1111#4 && w.extractLsb' 0 12 == 0#12 then
    .ok (.mrs c (w.getLsbD 22) (w.extractLsb' 12 4))
  else .error .shouldBeField

/-- MSR with an immediate operand (R98); with bit 21 = 0 the word is unallocated (R117 item 3). -/
def decodeStatusImm (c : Cond) (w : Word) : Except DecodeError Instr :=
  if w.getLsbD 21 then
    if w.extractLsb' 12 4 == 0b1111#4 then
      .ok (.msrImm c (w.getLsbD 22) (w.extractLsb' 16 4) (w.extractLsb' 8 4) (w.extractLsb' 0 8))
    else .error .shouldBeField
  else .error .unallocatedArm

/-- BX, and the unallocated words beside it: bits 27:23 = 00010, bit 20 = 0, bits 7, 4 = 0, 1
(R99, R117 item 2). -/
def decodeBx (c : Cond) (w : Word) : Except DecodeError Instr :=
  if w.extractLsb' 20 8 == 0b00010010#8 && w.extractLsb' 4 4 == 0b0001#4 then
    if w.extractLsb' 8 12 == 0xFFF#12 then .ok (.bx c (w.extractLsb' 0 4)) else .error .shouldBeField
  else .error .unallocatedArm

/-- The multiplies: bits 27:24 = 0000, bits 7:4 = 1001 (R100). -/
def decodeMultiply (c : Cond) (w : Word) : Except DecodeError Instr :=
  let s := w.getLsbD 20
  let hi := w.extractLsb' 16 4
  let lo := w.extractLsb' 12 4
  let rs := w.extractLsb' 8 4
  let rm := w.extractLsb' 0 4
  match (w.extractLsb' 21 3).toNat with
  | 0 => if lo == 0#4 then .ok (.mul c s hi rs rm) else .error .shouldBeField
  | 1 => .ok (.mla c s hi lo rs rm)
  | 4 => .ok (.umull c s hi lo rs rm)
  | 5 => .ok (.umlal c s hi lo rs rm)
  | 6 => .ok (.smull c s hi lo rs rm)
  | 7 => .ok (.smlal c s hi lo rs rm)
  | _ => .error .unallocatedArm

/-- The swaps: bits 27:24 = 0001, bits 7:4 = 1001 (R101). -/
def decodeSwap (c : Cond) (w : Word) : Except DecodeError Instr :=
  if w.extractLsb' 23 1 == 0#1 && w.extractLsb' 20 2 == 0#2 then
    if w.extractLsb' 8 4 == 0#4 then
      if w.getLsbD 22 then .ok (.swpb c (w.extractLsb' 16 4) (w.extractLsb' 12 4) (w.extractLsb' 0 4))
      else .ok (.swp c (w.extractLsb' 16 4) (w.extractLsb' 12 4) (w.extractLsb' 0 4))
    else .error .shouldBeField
  else .error .unallocatedArm

/-- Halfword and signed transfers: bits 7, 4 = 1, 1 and S H not 00 (R102). -/
def decodeHalf (c : Cond) (w : Word) : Except DecodeError Instr :=
  let p := w.getLsbD 24
  let u := w.getLsbD 23
  let wb := w.getLsbD 21
  let load := w.getLsbD 20
  let rn := w.extractLsb' 16 4
  let rd := w.extractLsb' 12 4
  let off := w.extractLsb' 8 4 ++ w.extractLsb' 0 4
  let rm := w.extractLsb' 0 4
  let sh := (w.extractLsb' 5 2).toNat
  if !load && sh != 1 then .error .unallocatedArm
  else if w.getLsbD 22 then
    match sh with
    | 1 => if load then .ok (.ldrhImm c p u wb rn rd off) else .ok (.strhImm c p u wb rn rd off)
    | 2 => .ok (.ldrsbImm c p u wb rn rd off)
    | _ => .ok (.ldrshImm c p u wb rn rd off)
  else if w.extractLsb' 8 4 == 0#4 then
    match sh with
    | 1 => if load then .ok (.ldrhReg c p u wb rn rd rm) else .ok (.strhReg c p u wb rn rd rm)
    | 2 => .ok (.ldrsbReg c p u wb rn rd rm)
    | _ => .ok (.ldrshReg c p u wb rn rd rm)
  else .error .shouldBeField

/-- Load/store word or byte, immediate offset (R103, R200). -/
def decodeTransferImm (c : Cond) (w : Word) : Instr :=
  let p := w.getLsbD 24
  let u := w.getLsbD 23
  let byte := w.getLsbD 22
  let wb := w.getLsbD 21
  let load := w.getLsbD 20
  let rn := w.extractLsb' 16 4
  let rd := w.extractLsb' 12 4
  let off := w.extractLsb' 0 12
  if p then
    if load then (if byte then .ldrbImm c u wb rn rd off else .ldrImm c u wb rn rd off)
    else (if byte then .strbImm c u wb rn rd off else .strImm c u wb rn rd off)
  else if wb then
    if load then (if byte then .ldrbtImm c u rn rd off else .ldrtImm c u rn rd off)
    else (if byte then .strbtImm c u rn rd off else .strtImm c u rn rd off)
  else
    if load then (if byte then .ldrbImmPost c u rn rd off else .ldrImmPost c u rn rd off)
    else (if byte then .strbImmPost c u rn rd off else .strImmPost c u rn rd off)

/-- Load/store word or byte, shifted register offset (R103, R200). -/
def decodeTransferReg (c : Cond) (w : Word) : Instr :=
  let p := w.getLsbD 24
  let u := w.getLsbD 23
  let byte := w.getLsbD 22
  let wb := w.getLsbD 21
  let load := w.getLsbD 20
  let rn := w.extractLsb' 16 4
  let rd := w.extractLsb' 12 4
  let n := w.extractLsb' 7 5
  let sh := shiftOfBits (w.extractLsb' 5 2)
  let rm := w.extractLsb' 0 4
  if p then
    if load then (if byte then .ldrbReg c u wb rn rd n sh rm else .ldrReg c u wb rn rd n sh rm)
    else (if byte then .strbReg c u wb rn rd n sh rm else .strReg c u wb rn rd n sh rm)
  else if wb then
    if load then (if byte then .ldrbtReg c u rn rd n sh rm else .ldrtReg c u rn rd n sh rm)
    else (if byte then .strbtReg c u rn rd n sh rm else .strtReg c u rn rd n sh rm)
  else
    if load then (if byte then .ldrbRegPost c u rn rd n sh rm else .ldrRegPost c u rn rd n sh rm)
    else (if byte then .strbRegPost c u rn rd n sh rm else .strRegPost c u rn rd n sh rm)

/-- Load/store multiple (R105, R230). -/
def decodeBlock (c : Cond) (w : Word) : Instr :=
  let p := w.getLsbD 24
  let u := w.getLsbD 23
  let s := w.getLsbD 22
  let wb := w.getLsbD 21
  let rn := w.extractLsb' 16 4
  if w.getLsbD 20 then
    if s then
      if w.getLsbD 15 then .ldm3 c p u wb rn (w.extractLsb' 0 15)
      else .ldm2 c p u wb rn (w.extractLsb' 0 15)
    else .ldm1 c p u wb rn (w.extractLsb' 0 16)
  else if s then .stm2 c p u wb rn (w.extractLsb' 0 16)
  else .stm1 c p u wb rn (w.extractLsb' 0 16)

/-- LDC and STC (R107). -/
def decodeCoprocTransfer (c : Cond) (w : Word) : Instr :=
  let p := w.getLsbD 24
  let u := w.getLsbD 23
  let n := w.getLsbD 22
  let wb := w.getLsbD 21
  let rn := w.extractLsb' 16 4
  let crd := w.extractLsb' 12 4
  let cp := w.extractLsb' 8 4
  let off := w.extractLsb' 0 8
  if w.getLsbD 20 then .ldc c p u n wb rn crd cp off else .stc c p u n wb rn crd cp off

/-- CDP, MCR, MRC (R108) and SWI (R109). -/
def decodeCoprocOrSwi (c : Cond) (w : Word) : Instr :=
  let crn := w.extractLsb' 16 4
  let rd := w.extractLsb' 12 4
  let cp := w.extractLsb' 8 4
  let op2 := w.extractLsb' 5 3
  let crm := w.extractLsb' 0 4
  if w.getLsbD 24 then .swi c (w.extractLsb' 0 24)
  else if w.getLsbD 4 then
    if w.getLsbD 20 then .mrc c (w.extractLsb' 21 3) crn rd cp op2 crm
    else .mcr c (w.extractLsb' 21 3) crn rd cp op2 crm
  else .cdp c (w.extractLsb' 20 4) crn rd cp op2 crm

/-- The words with I[27:25] = 000 (R95). -/
def decodeClass0 (c : Cond) (w : Word) : Except DecodeError Instr :=
  if w.getLsbD 4 then
    if w.getLsbD 7 then
      if w.extractLsb' 5 2 == 0#2 then (if w.getLsbD 24 then decodeSwap c w else decodeMultiply c w)
      else decodeHalf c w
    else if controlSpace w then decodeBx c w else decodeDpShReg c w
  else if controlSpace w then decodeStatus c w else decodeDpShImm c w

/-- The decode tree of R95, for an ARM word whose condition is `c`. -/
def decodeTree (c : Cond) (w : Word) : Except DecodeError Instr :=
  match (w.extractLsb' 25 3).toNat with
  | 0 => decodeClass0 c w
  | 1 => if controlSpace w then decodeStatusImm c w else decodeDpImm c w
  | 2 => .ok (decodeTransferImm c w)
  | 3 => if w.getLsbD 4 then .ok (.undefined c (w.extractLsb' 5 20) (w.extractLsb' 0 4))
         else .ok (decodeTransferReg c w)
  | 4 => .ok (decodeBlock c w)
  | 5 => if w.getLsbD 24 then .ok (.bl c (w.extractLsb' 0 24)) else .ok (.b c (w.extractLsb' 0 24))
  | 6 => .ok (decodeCoprocTransfer c w)
  | _ => .ok (decodeCoprocOrSwi c w)

/-- The instruction of an ARM word (R91 to R109). -/
def decodeArm (w : Word) : Except DecodeError Instr :=
  match condOfBits (w.extractLsb' 28 4) with
  | some c => decodeTree c w
  | none => .error .conditionNever

/-! ## Thumb instructions -/

/-- Format 2 (R110, R111). -/
def decodeFormat2 (h : Half) : Instr :=
  let x := h.extractLsb' 6 3
  let rs := h.extractLsb' 3 3
  let rd := h.extractLsb' 0 3
  if h.getLsbD 10 then (if h.getLsbD 9 then .tSubImm3 x rs rd else .tAddImm3 x rs rd)
  else (if h.getLsbD 9 then .tSubReg x rs rd else .tAddReg x rs rd)

/-- Format 4 (R110, R111). -/
def decodeFormat4 (h : Half) : Instr :=
  let rs := h.extractLsb' 3 3
  let rd := h.extractLsb' 0 3
  match (h.extractLsb' 6 4).toNat with
  | 0 => .tAnd rs rd
  | 1 => .tEor rs rd
  | 2 => .tLslReg rs rd
  | 3 => .tLsrReg rs rd
  | 4 => .tAsrReg rs rd
  | 5 => .tAdc rs rd
  | 6 => .tSbc rs rd
  | 7 => .tRorReg rs rd
  | 8 => .tTst rs rd
  | 9 => .tNeg rs rd
  | 10 => .tCmp rs rd
  | 11 => .tCmn rs rd
  | 12 => .tOrr rs rd
  | 13 => .tMul rs rd
  | 14 => .tBic rs rd
  | _ => .tMvn rs rd

/-- Format 5 (R110, R111, R118 item 4). -/
def decodeFormat5 (h : Half) : Except DecodeError Instr :=
  let d : Reg := h.extractLsb' 7 1 ++ h.extractLsb' 0 3
  let s : Reg := h.extractLsb' 3 4
  match (h.extractLsb' 8 2).toNat with
  | 0 => .ok (.tAddHi d s)
  | 1 => .ok (.tCmpHi d s)
  | 2 => .ok (.tMovHi d s)
  | _ => if h.getLsbD 7 || h.extractLsb' 0 3 != 0#3 then .error .thumbBxField else .ok (.tBx s)

/-- Formats 7 and 8 (R110, R111). -/
def decodeFormat78 (h : Half) : Instr :=
  let ro := h.extractLsb' 6 3
  let rb := h.extractLsb' 3 3
  let rd := h.extractLsb' 0 3
  match (h.extractLsb' 9 3).toNat with
  | 0 => .tStrReg ro rb rd
  | 1 => .tStrhReg ro rb rd
  | 2 => .tStrbReg ro rb rd
  | 3 => .tLdsbReg ro rb rd
  | 4 => .tLdrReg ro rb rd
  | 5 => .tLdrhReg ro rb rd
  | 6 => .tLdrbReg ro rb rd
  | _ => .tLdshReg ro rb rd

/-- The halfwords 1011 xxxx xxxx xxxx: formats 13 and 14, and R118 item 3. -/
def decodeFormat1314 (h : Half) : Instr :=
  if undefinedHalf h then .tUndefinedSpace h
  else if h.getLsbD 10 then
    if h.getLsbD 11 then .tPop (h.getLsbD 8) (h.extractLsb' 0 8)
    else .tPush (h.getLsbD 8) (h.extractLsb' 0 8)
  else if h.getLsbD 7 then .tSpDown (h.extractLsb' 0 7)
  else .tSpUp (h.extractLsb' 0 7)

/-- Formats 16 and 17, and R118 item 1 (R113). -/
def decodeFormat1617 (h : Half) : Instr :=
  let low := h.extractLsb' 0 8
  match (h.extractLsb' 8 4).toNat with
  | 0 => .tBeq low
  | 1 => .tBne low
  | 2 => .tBcs low
  | 3 => .tBcc low
  | 4 => .tBmi low
  | 5 => .tBpl low
  | 6 => .tBvs low
  | 7 => .tBvc low
  | 8 => .tBhi low
  | 9 => .tBls low
  | 10 => .tBge low
  | 11 => .tBlt low
  | 12 => .tBgt low
  | 13 => .tBle low
  | 14 => .tUndefined low
  | _ => .tSwi low

/-- The instruction of a Thumb halfword (R110 to R118), by its five high bits. -/
def decodeThumb (h : Half) : Except DecodeError Instr :=
  let x := h.extractLsb' 6 5
  let hi := h.extractLsb' 8 3
  let rs := h.extractLsb' 3 3
  let rd := h.extractLsb' 0 3
  let imm := h.extractLsb' 0 8
  match (h.extractLsb' 11 5).toNat with
  | 0 => .ok (.tLslImm x rs rd)
  | 1 => .ok (.tLsrImm x rs rd)
  | 2 => .ok (.tAsrImm x rs rd)
  | 3 => .ok (decodeFormat2 h)
  | 4 => .ok (.tMovImm8 hi imm)
  | 5 => .ok (.tCmpImm8 hi imm)
  | 6 => .ok (.tAddImm8 hi imm)
  | 7 => .ok (.tSubImm8 hi imm)
  | 8 => if h.getLsbD 10 then decodeFormat5 h else .ok (decodeFormat4 h)
  | 9 => .ok (.tLdrPc hi imm)
  | 10 => .ok (decodeFormat78 h)
  | 11 => .ok (decodeFormat78 h)
  | 12 => .ok (.tStrImm x rs rd)
  | 13 => .ok (.tLdrImm x rs rd)
  | 14 => .ok (.tStrbImm x rs rd)
  | 15 => .ok (.tLdrbImm x rs rd)
  | 16 => .ok (.tStrhImm x rs rd)
  | 17 => .ok (.tLdrhImm x rs rd)
  | 18 => .ok (.tStrSp hi imm)
  | 19 => .ok (.tLdrSp hi imm)
  | 20 => .ok (.tAddPc hi imm)
  | 21 => .ok (.tAddSp hi imm)
  | 22 => .ok (decodeFormat1314 h)
  | 23 => .ok (decodeFormat1314 h)
  | 24 => .ok (.tStmia hi imm)
  | 25 => .ok (.tLdmia hi imm)
  | 26 => .ok (decodeFormat1617 h)
  | 27 => .ok (decodeFormat1617 h)
  | 28 => .ok (.tB (h.extractLsb' 0 11))
  | 29 => .ok (.tUndefinedSpace h)
  | 30 => .ok (.tBlPrefix (h.extractLsb' 0 11))
  | _ => .ok (.tBlSuffix (h.extractLsb' 0 11))

/-- The instruction of a word in ARM state, of a halfword in Thumb state (R90). -/
def decode (x : Code) : Except DecodeError Instr :=
  match x with
  | .arm w => decodeArm w
  | .thumb h => decodeThumb h

/-- The instruction whose bits are `w`, as spec/opcode_table.json numbers them: a row of 16 bits is a
Thumb halfword, a row of 32 bits an ARM word. -/
def decodeTableWord (nbits w : Nat) : Option Instr :=
  match decode (if nbits ≤ 16 then .thumb (BitVec.ofNat 16 w) else .arm (BitVec.ofNat 32 w)) with
  | .ok i => some i
  | .error _ => none

/-! ## The encoder -/

/-- A field of an ARM word with its lowest bit at bit `lo`. -/
def wordAt (lo : Nat) {n : Nat} (x : BitVec n) : Word := x.setWidth 32 <<< lo

/-- A field of a Thumb halfword with its lowest bit at bit `lo`. -/
def halfAt (lo : Nat) {n : Nat} (x : BitVec n) : Half := x.setWidth 16 <<< lo

/-- Data processing, immediate (R96). -/
def encodeDpImm (op : AluOp) (c : Cond) (s : Bool) (rn rd : Reg) (rot : BitVec 4) (imm : BitVec 8) : Word :=
  wordAt 28 c.bits ||| wordAt 25 0b001#3 ||| wordAt 21 op.bits ||| wordAt 20 (bit s) ||| wordAt 16 rn |||
      wordAt 12 rd ||| wordAt 8 rot ||| wordAt 0 imm

/-- Data processing, register shifted by immediate (R96). -/
def encodeDpShImm (op : AluOp) (c : Cond) (s : Bool) (rn rd : Reg) (n : BitVec 5) (sh : Shift) (rm : Reg) : Word :=
  wordAt 28 c.bits ||| wordAt 21 op.bits ||| wordAt 20 (bit s) ||| wordAt 16 rn ||| wordAt 12 rd |||
      wordAt 7 n ||| wordAt 5 sh.bits ||| wordAt 0 rm

/-- Data processing, register shifted by register (R96). -/
def encodeDpShReg (op : AluOp) (c : Cond) (s : Bool) (rn rd rs : Reg) (sh : Shift) (rm : Reg) : Word :=
  wordAt 28 c.bits ||| wordAt 21 op.bits ||| wordAt 20 (bit s) ||| wordAt 16 rn ||| wordAt 12 rd |||
      wordAt 8 rs ||| wordAt 5 sh.bits ||| wordAt 4 1#1 ||| wordAt 0 rm

/-- The multiplies (R100); `kind` is bits 24:22 and `a` the accumulate bit. -/
def encodeMultiply (c : Cond) (kind : BitVec 3) (a s : Bool) (hi lo rs rm : Reg) : Word :=
  wordAt 28 c.bits ||| wordAt 22 kind ||| wordAt 21 (bit a) ||| wordAt 20 (bit s) ||| wordAt 16 hi |||
      wordAt 12 lo ||| wordAt 8 rs ||| wordAt 4 0b1001#4 ||| wordAt 0 rm

/-- Halfword and signed transfers (R102); `imm` is bit 22. -/
def encodeHalf (c : Cond) (p u imm w load : Bool) (rn rd high : Reg) (sh : BitVec 2) (low : Reg) : Word :=
  wordAt 28 c.bits ||| wordAt 24 (bit p) ||| wordAt 23 (bit u) ||| wordAt 22 (bit imm) ||| wordAt 21 (bit w) |||
      wordAt 20 (bit load) ||| wordAt 16 rn ||| wordAt 12 rd ||| wordAt 8 high ||| wordAt 7 1#1 |||
      wordAt 5 sh ||| wordAt 4 1#1 ||| wordAt 0 low

/-- Load/store word or byte, immediate offset (R103). -/
def encodeTransferImm (c : Cond) (p u byte w load : Bool) (rn rd : Reg) (off : BitVec 12) : Word :=
  wordAt 28 c.bits ||| wordAt 25 0b010#3 ||| wordAt 24 (bit p) ||| wordAt 23 (bit u) ||| wordAt 22 (bit byte) |||
      wordAt 21 (bit w) ||| wordAt 20 (bit load) ||| wordAt 16 rn ||| wordAt 12 rd ||| wordAt 0 off

/-- Load/store word or byte, shifted register offset (R103). -/
def encodeTransferReg (c : Cond) (p u byte w load : Bool) (rn rd : Reg) (n : BitVec 5) (sh : Shift) (rm : Reg) : Word :=
  wordAt 28 c.bits ||| wordAt 25 0b011#3 ||| wordAt 24 (bit p) ||| wordAt 23 (bit u) ||| wordAt 22 (bit byte) |||
      wordAt 21 (bit w) ||| wordAt 20 (bit load) ||| wordAt 16 rn ||| wordAt 12 rd ||| wordAt 7 n |||
      wordAt 5 sh.bits ||| wordAt 0 rm

/-- Load/store multiple (R105). -/
def encodeBlock (c : Cond) (p u s w load : Bool) (rn : Reg) (list : BitVec 16) : Word :=
  wordAt 28 c.bits ||| wordAt 25 0b100#3 ||| wordAt 24 (bit p) ||| wordAt 23 (bit u) ||| wordAt 22 (bit s) |||
      wordAt 21 (bit w) ||| wordAt 20 (bit load) ||| wordAt 16 rn ||| wordAt 0 list

/-- The word or halfword of an instruction, from the format rules R96 to R111. -/
def encode (i : Instr) : Code :=
  match i with
  | .andImm c s rn rd rot imm => .arm (encodeDpImm .and c s rn rd rot imm)
  | .andShImm c s rn rd n sh rm => .arm (encodeDpShImm .and c s rn rd n sh rm)
  | .andShReg c s rn rd rs sh rm => .arm (encodeDpShReg .and c s rn rd rs sh rm)
  | .eorImm c s rn rd rot imm => .arm (encodeDpImm .eor c s rn rd rot imm)
  | .eorShImm c s rn rd n sh rm => .arm (encodeDpShImm .eor c s rn rd n sh rm)
  | .eorShReg c s rn rd rs sh rm => .arm (encodeDpShReg .eor c s rn rd rs sh rm)
  | .subImm c s rn rd rot imm => .arm (encodeDpImm .sub c s rn rd rot imm)
  | .subShImm c s rn rd n sh rm => .arm (encodeDpShImm .sub c s rn rd n sh rm)
  | .subShReg c s rn rd rs sh rm => .arm (encodeDpShReg .sub c s rn rd rs sh rm)
  | .rsbImm c s rn rd rot imm => .arm (encodeDpImm .rsb c s rn rd rot imm)
  | .rsbShImm c s rn rd n sh rm => .arm (encodeDpShImm .rsb c s rn rd n sh rm)
  | .rsbShReg c s rn rd rs sh rm => .arm (encodeDpShReg .rsb c s rn rd rs sh rm)
  | .addImm c s rn rd rot imm => .arm (encodeDpImm .add c s rn rd rot imm)
  | .addShImm c s rn rd n sh rm => .arm (encodeDpShImm .add c s rn rd n sh rm)
  | .addShReg c s rn rd rs sh rm => .arm (encodeDpShReg .add c s rn rd rs sh rm)
  | .adcImm c s rn rd rot imm => .arm (encodeDpImm .adc c s rn rd rot imm)
  | .adcShImm c s rn rd n sh rm => .arm (encodeDpShImm .adc c s rn rd n sh rm)
  | .adcShReg c s rn rd rs sh rm => .arm (encodeDpShReg .adc c s rn rd rs sh rm)
  | .sbcImm c s rn rd rot imm => .arm (encodeDpImm .sbc c s rn rd rot imm)
  | .sbcShImm c s rn rd n sh rm => .arm (encodeDpShImm .sbc c s rn rd n sh rm)
  | .sbcShReg c s rn rd rs sh rm => .arm (encodeDpShReg .sbc c s rn rd rs sh rm)
  | .rscImm c s rn rd rot imm => .arm (encodeDpImm .rsc c s rn rd rot imm)
  | .rscShImm c s rn rd n sh rm => .arm (encodeDpShImm .rsc c s rn rd n sh rm)
  | .rscShReg c s rn rd rs sh rm => .arm (encodeDpShReg .rsc c s rn rd rs sh rm)
  | .tstImm c rn rot imm => .arm (encodeDpImm .tst c true rn 0 rot imm)
  | .tstShImm c rn n sh rm => .arm (encodeDpShImm .tst c true rn 0 n sh rm)
  | .tstShReg c rn rs sh rm => .arm (encodeDpShReg .tst c true rn 0 rs sh rm)
  | .teqImm c rn rot imm => .arm (encodeDpImm .teq c true rn 0 rot imm)
  | .teqShImm c rn n sh rm => .arm (encodeDpShImm .teq c true rn 0 n sh rm)
  | .teqShReg c rn rs sh rm => .arm (encodeDpShReg .teq c true rn 0 rs sh rm)
  | .cmpImm c rn rot imm => .arm (encodeDpImm .cmp c true rn 0 rot imm)
  | .cmpShImm c rn n sh rm => .arm (encodeDpShImm .cmp c true rn 0 n sh rm)
  | .cmpShReg c rn rs sh rm => .arm (encodeDpShReg .cmp c true rn 0 rs sh rm)
  | .cmnImm c rn rot imm => .arm (encodeDpImm .cmn c true rn 0 rot imm)
  | .cmnShImm c rn n sh rm => .arm (encodeDpShImm .cmn c true rn 0 n sh rm)
  | .cmnShReg c rn rs sh rm => .arm (encodeDpShReg .cmn c true rn 0 rs sh rm)
  | .orrImm c s rn rd rot imm => .arm (encodeDpImm .orr c s rn rd rot imm)
  | .orrShImm c s rn rd n sh rm => .arm (encodeDpShImm .orr c s rn rd n sh rm)
  | .orrShReg c s rn rd rs sh rm => .arm (encodeDpShReg .orr c s rn rd rs sh rm)
  | .movImm c s rd rot imm => .arm (encodeDpImm .mov c s 0 rd rot imm)
  | .movShImm c s rd n sh rm => .arm (encodeDpShImm .mov c s 0 rd n sh rm)
  | .movShReg c s rd rs sh rm => .arm (encodeDpShReg .mov c s 0 rd rs sh rm)
  | .bicImm c s rn rd rot imm => .arm (encodeDpImm .bic c s rn rd rot imm)
  | .bicShImm c s rn rd n sh rm => .arm (encodeDpShImm .bic c s rn rd n sh rm)
  | .bicShReg c s rn rd rs sh rm => .arm (encodeDpShReg .bic c s rn rd rs sh rm)
  | .mvnImm c s rd rot imm => .arm (encodeDpImm .mvn c s 0 rd rot imm)
  | .mvnShImm c s rd n sh rm => .arm (encodeDpShImm .mvn c s 0 rd n sh rm)
  | .mvnShReg c s rd rs sh rm => .arm (encodeDpShReg .mvn c s 0 rd rs sh rm)
  | .mrs c r rd => .arm (wordAt 28 c.bits ||| wordAt 23 0b00010#5 ||| wordAt 22 (bit r) ||| wordAt 16 0b1111#4 |||
      wordAt 12 rd)
  | .msrReg c r mask rm => .arm (wordAt 28 c.bits ||| wordAt 23 0b00010#5 ||| wordAt 22 (bit r) |||
      wordAt 20 0b10#2 ||| wordAt 16 mask ||| wordAt 12 0b1111#4 ||| wordAt 0 rm)
  | .msrImm c r mask rot imm => .arm (wordAt 28 c.bits ||| wordAt 23 0b00110#5 ||| wordAt 22 (bit r) |||
      wordAt 20 0b10#2 ||| wordAt 16 mask ||| wordAt 12 0b1111#4 ||| wordAt 8 rot ||| wordAt 0 imm)
  | .bx c rm => .arm (wordAt 28 c.bits ||| wordAt 4 0x12FFF1#24 ||| wordAt 0 rm)
  | .mul c s rd rs rm => .arm (encodeMultiply c 0b000#3 false s rd 0 rs rm)
  | .mla c s rd rn rs rm => .arm (encodeMultiply c 0b000#3 true s rd rn rs rm)
  | .umull c s rdHi rdLo rs rm => .arm (encodeMultiply c 0b010#3 false s rdHi rdLo rs rm)
  | .umlal c s rdHi rdLo rs rm => .arm (encodeMultiply c 0b010#3 true s rdHi rdLo rs rm)
  | .smull c s rdHi rdLo rs rm => .arm (encodeMultiply c 0b011#3 false s rdHi rdLo rs rm)
  | .smlal c s rdHi rdLo rs rm => .arm (encodeMultiply c 0b011#3 true s rdHi rdLo rs rm)
  | .swp c rn rd rm => .arm (wordAt 28 c.bits ||| wordAt 20 0b00010000#8 ||| wordAt 16 rn ||| wordAt 12 rd |||
      wordAt 4 0b00001001#8 ||| wordAt 0 rm)
  | .swpb c rn rd rm => .arm (wordAt 28 c.bits ||| wordAt 20 0b00010100#8 ||| wordAt 16 rn ||| wordAt 12 rd |||
      wordAt 4 0b00001001#8 ||| wordAt 0 rm)
  | .strhReg c p u w rn rd rm => .arm (encodeHalf c p u false w false rn rd 0 0b01#2 rm)
  | .strhImm c p u w rn rd off => .arm (encodeHalf c p u true w false rn rd (off.extractLsb' 4 4) 0b01#2 (off.extractLsb' 0 4))
  | .ldrhReg c p u w rn rd rm => .arm (encodeHalf c p u false w true rn rd 0 0b01#2 rm)
  | .ldrhImm c p u w rn rd off => .arm (encodeHalf c p u true w true rn rd (off.extractLsb' 4 4) 0b01#2 (off.extractLsb' 0 4))
  | .ldrsbReg c p u w rn rd rm => .arm (encodeHalf c p u false w true rn rd 0 0b10#2 rm)
  | .ldrsbImm c p u w rn rd off => .arm (encodeHalf c p u true w true rn rd (off.extractLsb' 4 4) 0b10#2 (off.extractLsb' 0 4))
  | .ldrshReg c p u w rn rd rm => .arm (encodeHalf c p u false w true rn rd 0 0b11#2 rm)
  | .ldrshImm c p u w rn rd off => .arm (encodeHalf c p u true w true rn rd (off.extractLsb' 4 4) 0b11#2 (off.extractLsb' 0 4))
  | .strImm c u w rn rd off => .arm (encodeTransferImm c true u false w false rn rd off)
  | .strImmPost c u rn rd off => .arm (encodeTransferImm c false u false false false rn rd off)
  | .strtImm c u rn rd off => .arm (encodeTransferImm c false u false true false rn rd off)
  | .strReg c u w rn rd n sh rm => .arm (encodeTransferReg c true u false w false rn rd n sh rm)
  | .strRegPost c u rn rd n sh rm => .arm (encodeTransferReg c false u false false false rn rd n sh rm)
  | .strtReg c u rn rd n sh rm => .arm (encodeTransferReg c false u false true false rn rd n sh rm)
  | .ldrImm c u w rn rd off => .arm (encodeTransferImm c true u false w true rn rd off)
  | .ldrImmPost c u rn rd off => .arm (encodeTransferImm c false u false false true rn rd off)
  | .ldrtImm c u rn rd off => .arm (encodeTransferImm c false u false true true rn rd off)
  | .ldrReg c u w rn rd n sh rm => .arm (encodeTransferReg c true u false w true rn rd n sh rm)
  | .ldrRegPost c u rn rd n sh rm => .arm (encodeTransferReg c false u false false true rn rd n sh rm)
  | .ldrtReg c u rn rd n sh rm => .arm (encodeTransferReg c false u false true true rn rd n sh rm)
  | .strbImm c u w rn rd off => .arm (encodeTransferImm c true u true w false rn rd off)
  | .strbImmPost c u rn rd off => .arm (encodeTransferImm c false u true false false rn rd off)
  | .strbtImm c u rn rd off => .arm (encodeTransferImm c false u true true false rn rd off)
  | .strbReg c u w rn rd n sh rm => .arm (encodeTransferReg c true u true w false rn rd n sh rm)
  | .strbRegPost c u rn rd n sh rm => .arm (encodeTransferReg c false u true false false rn rd n sh rm)
  | .strbtReg c u rn rd n sh rm => .arm (encodeTransferReg c false u true true false rn rd n sh rm)
  | .ldrbImm c u w rn rd off => .arm (encodeTransferImm c true u true w true rn rd off)
  | .ldrbImmPost c u rn rd off => .arm (encodeTransferImm c false u true false true rn rd off)
  | .ldrbtImm c u rn rd off => .arm (encodeTransferImm c false u true true true rn rd off)
  | .ldrbReg c u w rn rd n sh rm => .arm (encodeTransferReg c true u true w true rn rd n sh rm)
  | .ldrbRegPost c u rn rd n sh rm => .arm (encodeTransferReg c false u true false true rn rd n sh rm)
  | .ldrbtReg c u rn rd n sh rm => .arm (encodeTransferReg c false u true true true rn rd n sh rm)
  | .undefined c hi lo => .arm (wordAt 28 c.bits ||| wordAt 25 0b011#3 ||| wordAt 5 hi ||| wordAt 4 1#1 |||
      wordAt 0 lo)
  | .ldm1 c p u w rn list => .arm (encodeBlock c p u false w true rn list)
  | .ldm2 c p u w rn list => .arm (encodeBlock c p u true w true rn (list.setWidth 16))
  | .ldm3 c p u w rn list => .arm (encodeBlock c p u true w true rn (list.setWidth 16 ||| 0x8000#16))
  | .stm1 c p u w rn list => .arm (encodeBlock c p u false w false rn list)
  | .stm2 c p u w rn list => .arm (encodeBlock c p u true w false rn list)
  | .b c off => .arm (wordAt 28 c.bits ||| wordAt 24 0b1010#4 ||| wordAt 0 off)
  | .bl c off => .arm (wordAt 28 c.bits ||| wordAt 24 0b1011#4 ||| wordAt 0 off)
  | .stc c p u n w rn crd cp off => .arm (wordAt 28 c.bits ||| wordAt 25 0b110#3 ||| wordAt 24 (bit p) |||
      wordAt 23 (bit u) ||| wordAt 22 (bit n) ||| wordAt 21 (bit w) ||| wordAt 16 rn ||| wordAt 12 crd |||
      wordAt 8 cp ||| wordAt 0 off)
  | .ldc c p u n w rn crd cp off => .arm (wordAt 28 c.bits ||| wordAt 25 0b110#3 ||| wordAt 24 (bit p) |||
      wordAt 23 (bit u) ||| wordAt 22 (bit n) ||| wordAt 21 (bit w) ||| wordAt 20 1#1 ||| wordAt 16 rn |||
      wordAt 12 crd ||| wordAt 8 cp ||| wordAt 0 off)
  | .cdp c op1 crn crd cp op2 crm => .arm (wordAt 28 c.bits ||| wordAt 24 0b1110#4 ||| wordAt 20 op1 |||
      wordAt 16 crn ||| wordAt 12 crd ||| wordAt 8 cp ||| wordAt 5 op2 ||| wordAt 0 crm)
  | .mcr c op1 crn rd cp op2 crm => .arm (wordAt 28 c.bits ||| wordAt 24 0b1110#4 ||| wordAt 21 op1 |||
      wordAt 16 crn ||| wordAt 12 rd ||| wordAt 8 cp ||| wordAt 5 op2 ||| wordAt 4 1#1 ||| wordAt 0 crm)
  | .mrc c op1 crn rd cp op2 crm => .arm (wordAt 28 c.bits ||| wordAt 24 0b1110#4 ||| wordAt 21 op1 |||
      wordAt 20 1#1 ||| wordAt 16 crn ||| wordAt 12 rd ||| wordAt 8 cp ||| wordAt 5 op2 ||| wordAt 4 1#1 |||
      wordAt 0 crm)
  | .swi c comment => .arm (wordAt 28 c.bits ||| wordAt 24 0b1111#4 ||| wordAt 0 comment)
  | .tLslImm n rs rd => .thumb (halfAt 6 n ||| halfAt 3 rs ||| halfAt 0 rd)
  | .tLsrImm n rs rd => .thumb (halfAt 11 0b00001#5 ||| halfAt 6 n ||| halfAt 3 rs ||| halfAt 0 rd)
  | .tAsrImm n rs rd => .thumb (halfAt 11 0b00010#5 ||| halfAt 6 n ||| halfAt 3 rs ||| halfAt 0 rd)
  | .tAddReg rn rs rd => .thumb (halfAt 9 0b0001100#7 ||| halfAt 6 rn ||| halfAt 3 rs ||| halfAt 0 rd)
  | .tSubReg rn rs rd => .thumb (halfAt 9 0b0001101#7 ||| halfAt 6 rn ||| halfAt 3 rs ||| halfAt 0 rd)
  | .tAddImm3 imm rs rd => .thumb (halfAt 9 0b0001110#7 ||| halfAt 6 imm ||| halfAt 3 rs ||| halfAt 0 rd)
  | .tSubImm3 imm rs rd => .thumb (halfAt 9 0b0001111#7 ||| halfAt 6 imm ||| halfAt 3 rs ||| halfAt 0 rd)
  | .tMovImm8 rd imm => .thumb (halfAt 11 0b00100#5 ||| halfAt 8 rd ||| halfAt 0 imm)
  | .tCmpImm8 rd imm => .thumb (halfAt 11 0b00101#5 ||| halfAt 8 rd ||| halfAt 0 imm)
  | .tAddImm8 rd imm => .thumb (halfAt 11 0b00110#5 ||| halfAt 8 rd ||| halfAt 0 imm)
  | .tSubImm8 rd imm => .thumb (halfAt 11 0b00111#5 ||| halfAt 8 rd ||| halfAt 0 imm)
  | .tAnd rs rd => .thumb (halfAt 6 0b0100000000#10 ||| halfAt 3 rs ||| halfAt 0 rd)
  | .tEor rs rd => .thumb (halfAt 6 0b0100000001#10 ||| halfAt 3 rs ||| halfAt 0 rd)
  | .tLslReg rs rd => .thumb (halfAt 6 0b0100000010#10 ||| halfAt 3 rs ||| halfAt 0 rd)
  | .tLsrReg rs rd => .thumb (halfAt 6 0b0100000011#10 ||| halfAt 3 rs ||| halfAt 0 rd)
  | .tAsrReg rs rd => .thumb (halfAt 6 0b0100000100#10 ||| halfAt 3 rs ||| halfAt 0 rd)
  | .tAdc rs rd => .thumb (halfAt 6 0b0100000101#10 ||| halfAt 3 rs ||| halfAt 0 rd)
  | .tSbc rs rd => .thumb (halfAt 6 0b0100000110#10 ||| halfAt 3 rs ||| halfAt 0 rd)
  | .tRorReg rs rd => .thumb (halfAt 6 0b0100000111#10 ||| halfAt 3 rs ||| halfAt 0 rd)
  | .tTst rs rd => .thumb (halfAt 6 0b0100001000#10 ||| halfAt 3 rs ||| halfAt 0 rd)
  | .tNeg rs rd => .thumb (halfAt 6 0b0100001001#10 ||| halfAt 3 rs ||| halfAt 0 rd)
  | .tCmp rs rd => .thumb (halfAt 6 0b0100001010#10 ||| halfAt 3 rs ||| halfAt 0 rd)
  | .tCmn rs rd => .thumb (halfAt 6 0b0100001011#10 ||| halfAt 3 rs ||| halfAt 0 rd)
  | .tOrr rs rd => .thumb (halfAt 6 0b0100001100#10 ||| halfAt 3 rs ||| halfAt 0 rd)
  | .tMul rs rd => .thumb (halfAt 6 0b0100001101#10 ||| halfAt 3 rs ||| halfAt 0 rd)
  | .tBic rs rd => .thumb (halfAt 6 0b0100001110#10 ||| halfAt 3 rs ||| halfAt 0 rd)
  | .tMvn rs rd => .thumb (halfAt 6 0b0100001111#10 ||| halfAt 3 rs ||| halfAt 0 rd)
  | .tAddHi d s => .thumb (halfAt 8 0b01000100#8 ||| halfAt 7 (d.extractLsb' 3 1) ||| halfAt 3 s |||
      halfAt 0 (d.extractLsb' 0 3))
  | .tCmpHi d s => .thumb (halfAt 8 0b01000101#8 ||| halfAt 7 (d.extractLsb' 3 1) ||| halfAt 3 s |||
      halfAt 0 (d.extractLsb' 0 3))
  | .tMovHi d s => .thumb (halfAt 8 0b01000110#8 ||| halfAt 7 (d.extractLsb' 3 1) ||| halfAt 3 s |||
      halfAt 0 (d.extractLsb' 0 3))
  | .tBx s => .thumb (halfAt 7 0b010001110#9 ||| halfAt 3 s)
  | .tLdrPc rd off => .thumb (halfAt 11 0b01001#5 ||| halfAt 8 rd ||| halfAt 0 off)
  | .tStrReg ro rb rd => .thumb (halfAt 9 0b0101000#7 ||| halfAt 6 ro ||| halfAt 3 rb ||| halfAt 0 rd)
  | .tStrbReg ro rb rd => .thumb (halfAt 9 0b0101010#7 ||| halfAt 6 ro ||| halfAt 3 rb ||| halfAt 0 rd)
  | .tLdrReg ro rb rd => .thumb (halfAt 9 0b0101100#7 ||| halfAt 6 ro ||| halfAt 3 rb ||| halfAt 0 rd)
  | .tLdrbReg ro rb rd => .thumb (halfAt 9 0b0101110#7 ||| halfAt 6 ro ||| halfAt 3 rb ||| halfAt 0 rd)
  | .tStrhReg ro rb rd => .thumb (halfAt 9 0b0101001#7 ||| halfAt 6 ro ||| halfAt 3 rb ||| halfAt 0 rd)
  | .tLdsbReg ro rb rd => .thumb (halfAt 9 0b0101011#7 ||| halfAt 6 ro ||| halfAt 3 rb ||| halfAt 0 rd)
  | .tLdrhReg ro rb rd => .thumb (halfAt 9 0b0101101#7 ||| halfAt 6 ro ||| halfAt 3 rb ||| halfAt 0 rd)
  | .tLdshReg ro rb rd => .thumb (halfAt 9 0b0101111#7 ||| halfAt 6 ro ||| halfAt 3 rb ||| halfAt 0 rd)
  | .tStrImm off rb rd => .thumb (halfAt 11 0b01100#5 ||| halfAt 6 off ||| halfAt 3 rb ||| halfAt 0 rd)
  | .tLdrImm off rb rd => .thumb (halfAt 11 0b01101#5 ||| halfAt 6 off ||| halfAt 3 rb ||| halfAt 0 rd)
  | .tStrbImm off rb rd => .thumb (halfAt 11 0b01110#5 ||| halfAt 6 off ||| halfAt 3 rb ||| halfAt 0 rd)
  | .tLdrbImm off rb rd => .thumb (halfAt 11 0b01111#5 ||| halfAt 6 off ||| halfAt 3 rb ||| halfAt 0 rd)
  | .tStrhImm off rb rd => .thumb (halfAt 11 0b10000#5 ||| halfAt 6 off ||| halfAt 3 rb ||| halfAt 0 rd)
  | .tLdrhImm off rb rd => .thumb (halfAt 11 0b10001#5 ||| halfAt 6 off ||| halfAt 3 rb ||| halfAt 0 rd)
  | .tStrSp rd off => .thumb (halfAt 11 0b10010#5 ||| halfAt 8 rd ||| halfAt 0 off)
  | .tLdrSp rd off => .thumb (halfAt 11 0b10011#5 ||| halfAt 8 rd ||| halfAt 0 off)
  | .tAddPc rd off => .thumb (halfAt 11 0b10100#5 ||| halfAt 8 rd ||| halfAt 0 off)
  | .tAddSp rd off => .thumb (halfAt 11 0b10101#5 ||| halfAt 8 rd ||| halfAt 0 off)
  | .tSpUp off => .thumb (halfAt 7 0b101100000#9 ||| halfAt 0 off)
  | .tSpDown off => .thumb (halfAt 7 0b101100001#9 ||| halfAt 0 off)
  | .tPush lr list => .thumb (halfAt 9 0b1011010#7 ||| halfAt 8 (bit lr) ||| halfAt 0 list)
  | .tPop pc list => .thumb (halfAt 9 0b1011110#7 ||| halfAt 8 (bit pc) ||| halfAt 0 list)
  | .tStmia rb list => .thumb (halfAt 11 0b11000#5 ||| halfAt 8 rb ||| halfAt 0 list)
  | .tLdmia rb list => .thumb (halfAt 11 0b11001#5 ||| halfAt 8 rb ||| halfAt 0 list)
  | .tBeq off => .thumb (halfAt 8 0b11010000#8 ||| halfAt 0 off)
  | .tBne off => .thumb (halfAt 8 0b11010001#8 ||| halfAt 0 off)
  | .tBcs off => .thumb (halfAt 8 0b11010010#8 ||| halfAt 0 off)
  | .tBcc off => .thumb (halfAt 8 0b11010011#8 ||| halfAt 0 off)
  | .tBmi off => .thumb (halfAt 8 0b11010100#8 ||| halfAt 0 off)
  | .tBpl off => .thumb (halfAt 8 0b11010101#8 ||| halfAt 0 off)
  | .tBvs off => .thumb (halfAt 8 0b11010110#8 ||| halfAt 0 off)
  | .tBvc off => .thumb (halfAt 8 0b11010111#8 ||| halfAt 0 off)
  | .tBhi off => .thumb (halfAt 8 0b11011000#8 ||| halfAt 0 off)
  | .tBls off => .thumb (halfAt 8 0b11011001#8 ||| halfAt 0 off)
  | .tBge off => .thumb (halfAt 8 0b11011010#8 ||| halfAt 0 off)
  | .tBlt off => .thumb (halfAt 8 0b11011011#8 ||| halfAt 0 off)
  | .tBgt off => .thumb (halfAt 8 0b11011100#8 ||| halfAt 0 off)
  | .tBle off => .thumb (halfAt 8 0b11011101#8 ||| halfAt 0 off)
  | .tUndefined low => .thumb (halfAt 8 0xDE#8 ||| halfAt 0 low)
  | .tSwi comment => .thumb (halfAt 8 0xDF#8 ||| halfAt 0 comment)
  | .tB off => .thumb (halfAt 11 0b11100#5 ||| halfAt 0 off)
  | .tBlPrefix off => .thumb (halfAt 11 0b11110#5 ||| halfAt 0 off)
  | .tBlSuffix off => .thumb (halfAt 11 0b11111#5 ||| halfAt 0 off)
  | .tUndefinedSpace h => .thumb h

end Sys2Proof
end

