-- ==== Sys2Proof/Machine/State.lean ====
section
/-! DEFINITION. The state of the machine (10_state.md R20 to R59), the platform beside it
(00_scope.md R9, R10), and the reasons a step stops. -/

namespace Sys2Proof.Machine

/-! ## Status registers -/

/-- A program status register, CPSR or SPSR, field by field (R40): N, Z, C, V are bits 31:28,
`reserved` bits 27:8, I, F, T bits 7:5, `m` bits 4:0. -/
structure Psr where
  n : Bool
  z : Bool
  c : Bool
  v : Bool
  reserved : BitVec 20
  i : Bool
  f : Bool
  t : Bool
  m : BitVec 5
  deriving DecidableEq, Repr

/-- The processor modes (R44). -/
inductive Mode where
  | usr | fiq | irq | svc | abt | und | sys
  deriving DecidableEq, Repr

/-! ## The platform and the inputs -/

/-- The kind of an access, for the Abort oracle (20_memory.md R84). -/
inductive AccessKind where
  | fetch | read | write
  deriving DecidableEq, Repr

/-- The privilege an access is signalled with (20_memory.md R84). -/
inductive Privilege where
  | user | privileged
  deriving DecidableEq, Repr

/-- One line of the Abort oracle (20_memory.md R76; D6): the accesses whose address lies from `first`
to `last`, of the size, kind and privilege named (`none` names all), abort. Log 7. -/
structure AbortRule where
  first : Nat
  last : Nat
  size : Option Nat
  kind : Option AccessKind
  privilege : Option Privilege
  deriving DecidableEq, Repr

/-- Addresses, from `first` to `last`, at which the platform maps nothing (20_memory.md R70; D5). Log 8. -/
structure Hole where
  first : Nat
  last : Nat
  deriving DecidableEq, Repr

/-- What a store of r15 adds to the address of the instruction (44 R204; D11). Log 6. -/
inductive PcStore where
  | plus8 | plus12
  deriving DecidableEq, Repr

/-- The parameters of 00_scope.md R9 that are constant for a run. No step changes them. -/
structure Platform where
  /-- BIGEND (20_memory.md R60). Log 5. -/
  bigEnd : Bool
  /-- PC_STORE_OFFSET (44 R204). Log 6. -/
  pcStore : PcStore
  /-- CoprocPresent: the numbers of the coprocessors that are there (46 R252). Log 10. -/
  coprocs : List (BitVec 4)
  /-- Abort (20_memory.md R76). Log 7. -/
  aborts : List AbortRule
  /-- The complement of MemoryMap (20_memory.md R70). Log 8. -/
  holes : List Hole
  deriving DecidableEq, Repr

/-- The three input lines at one step (60 R371): true is asserted. Log 9. -/
structure Lines where
  reset : Bool
  fiq : Bool
  irq : Bool
  deriving DecidableEq, Repr

/-- What a coprocessor that is there answers to an instruction offered to it (46 R251): it makes the
core wait, or accepts, with the word or words it supplies or, for LDC, one word for each word it asks
for. Log 10. -/
inductive CoprocReply where
  | busy
  | accept (first : Word) (more : List Word)
  deriving DecidableEq, Repr

/-- Memory: the bytes that differ from what an unlisted address reads as, addresses strictly rising
(10_state.md R55). -/
abbrev Memory := List Host.Cell

/-! ## The state -/

/-- The state of the machine. -/
structure State where
  /-- The 30 general registers other than r15 (R20, R24): 0 to 7 r0 to r7, 8 to 12 r8 to r12, 13 and
  14 r13_usr and r14_usr, 15 to 19 r8_fiq to r12_fiq, 20 and 21 r13_fiq and r14_fiq, 22 and 23 those
  of irq, 24 and 25 of svc, 26 and 27 of abt, 28 and 29 of und. -/
  regs : Vector Word 30
  /-- The address of the instruction being executed (R30). -/
  cur : Word
  /-- The current program status register (R40). -/
  cpsr : Psr
  /-- SPSR_fiq (R47). -/
  spsrFiq : Psr
  /-- SPSR_irq (R47). -/
  spsrIrq : Psr
  /-- SPSR_svc (R47). -/
  spsrSvc : Psr
  /-- SPSR_abt (R47). -/
  spsrAbt : Psr
  /-- SPSR_und (R47). -/
  spsrUnd : Psr
  /-- Memory (R55). -/
  mem : Memory
  /-- The platform (00_scope.md R9). -/
  plat : Platform
  /-- The input lines at this step and the following ones; none left means not asserted (R371). -/
  lines : List Lines
  /-- What coprocessors will answer, in order; none left means a wait (46 R251). -/
  replies : List CoprocReply
  /-- The words sent to coprocessors, with the number of the coprocessor, in order (46 R254, R256). -/
  sent : List (BitVec 4 × Word)
  /-- Sequential execution has passed the top of the address space (R34). -/
  pastTop : Bool
  /-- The last instruction executed was an LDM (2) or STM (2) (45 R244). -/
  afterUserBank : Bool
  /-- What the bytes stored so far by the instruction in execution held before, in the order of the
  stores; empty between instructions (20_memory.md R81). -/
  currentStores : List Host.Cell
  /-- The same for all the stores of the last instruction executed; empty when it wrote the pc (R81). -/
  recentStores : List Host.Cell
  /-- The same for the instruction before the last, when no pc write came after it (R81). -/
  olderStores : List Host.Cell
  /-- The MODEL's own field: how many free values have been drawn. Log 24. -/
  draws : Nat
  deriving DecidableEq, Repr

/-- Why the machine stops. -/
inductive Fault where
  /-- A mode value outside the table of R44 in CPSR.M, "an unrecoverable mode" (R45, D17): raised by
  MSR, by an exception return, and by a step from such a state. Safe. -/
  | illegalMode
  /-- An access, data or fetch, to an address at which the platform maps nothing (D5: the step does
  not exist): raised by every load, store and swap, and by the fetch. Safe. -/
  | unmapped
  deriving DecidableEq, Repr

/-- Why an execution is refused: the spec calls each of these UNPREDICTABLE, or excludes the unit. -/
inductive Refusal where
  /-- An instruction without a meaning yet: raised by no instruction of this model. Safe. -/
  | notModelled (mnemonic : String)
  /-- A word or halfword the decoder rejects (R94, R117 items 2 to 6, R118 item 4): raised by the
  step. Safe. -/
  | undecodable (e : DecodeError)
  /-- Sequential execution past the top of the address space (R34, D20): raised by the step. Safe. -/
  | pastTop
  /-- A value with bits 1:0 not 00 written to the pc in ARM state (R33, D4): raised by the
  data-processing instructions and the exception returns. Safe. -/
  | pcMisaligned
  /-- BX to ARM state with bits 1:0 of the target 10 (40 R134, 49 R349): raised by BX. Safe. -/
  | exchangeMisaligned
  /-- An SPSR named in User or System mode (R47): raised by MRS, MSR, the data-processing
  instructions with S = 1 and Rd = r15, and LDM (3). Safe. -/
  | noSpsr
  /-- MSR that would change CPSR.T (42 R185): raised by MSR. Safe. -/
  | forcesT
  /-- r15 where the rule of the instruction forbids it (41 R145, 42 R181, R182, 43 R190, 44 R201,
  R203, R214, 45 R233, 46 R246, R254, 47 R298): raised by those instructions. Safe. -/
  | pcOperand
  /-- Registers that must differ are the same (43 R191 to R193, 46 R246, 47 R293): raised by the
  multiplies and the swaps. Safe. -/
  | sameRegister
  /-- Write-back with Rd = Rn, or with Rm = Rn (44 R203): raised by the single transfers. Safe. -/
  | writeBack
  /-- P = 0 with W = 1 in the halfword format (44 R214): raised by LDRH, STRH, LDRSB, LDRSH. Safe. -/
  | postIndexW
  /-- A halfword access at an odd address (20_memory.md R69, D3): raised by the halfword loads and
  stores. Safe. -/
  | oddHalfword
  /-- An empty register list (45 R233, 48 R330, R331, R333, R334): raised by the block transfers. Safe. -/
  | emptyList
  /-- The base in the list of a block transfer with write-back, where that is UNPREDICTABLE (45 R233,
  48 R333): raised by LDM, STM and the Thumb STMIA. Safe. -/
  | baseInList
  /-- LDM (2) or STM (2) with W = 1 (45 R233, R237, R239): raised by them. Safe. -/
  | userBankWriteBack
  /-- LDM (2) or STM (2) in User or System mode (45 R233): raised by them. Safe. -/
  | userBankMode
  /-- A banked register accessed right after LDM (2) or STM (2) (45 R244, 70 R413): raised by the
  step, and by an instruction whose own exception enters the mode it is in. Safe. -/
  | bankedAfterUserBank
  /-- Both registers of a Thumb format 5 ADD, CMP or MOV low (R118 item 5, 47 R296): raised by
  those. Safe. -/
  | bothLow
  /-- Coprocessor 14, the debug communications channel, which the spec excludes (46 R252, D9, D14):
  raised by the coprocessor instructions. Safe. -/
  | debugCoproc
  /-- The unindexed form of LDC or STC with U = 0 (46 R254): raised by them. Safe. -/
  | unindexedDown
  deriving DecidableEq, Repr

/-- The status register after reset (R59, R400): Supervisor mode, ARM state, both interrupts disabled.
The flags and the reserved bits, which the spec leaves unspecified, at the value of log 2. -/
def Psr.reset : Psr :=
  { n := false, z := false, c := false, v := false, reserved := 0, i := true, f := true, t := false,
    m := 0b10011 }

/-- A status register of zeros, the value of log 3 for the SPSRs. -/
def Psr.zero : Psr :=
  { n := false, z := false, c := false, v := false, reserved := 0, i := false, f := false, t := false,
    m := 0 }

/-- The defaults of 00_scope.md R9. -/
def Platform.reset : Platform :=
  { bigEnd := false, pcStore := .plus12, coprocs := [], aborts := [], holes := [] }

/-- The machine right after reset (10_state.md R59, 70 R400, R401). -/
def State.reset : State :=
  { regs := Vector.replicate 30 0, cur := 0, cpsr := .reset,
    spsrFiq := .zero, spsrIrq := .zero, spsrSvc := .zero, spsrAbt := .zero, spsrUnd := .zero,
    mem := [], plat := .reset, lines := [], replies := [], sent := [], pastTop := false,
    afterUserBank := false, currentStores := [], recentStores := [], olderStores := [], draws := 0 }

end Sys2Proof.Machine
end

