-- ==== Sys2Proof/Machine/Ops.lean ====
section
/-! DEFINITION. The shared operations over memory, registers, the status registers and the program
counter, taking an exception and returning from one. -/

namespace Sys2Proof.Machine

/-- What executing an instruction answers. -/
abbrev Result := Host.Outcome State Fault Refusal

/-! ## Memory as bytes -/

/-- What a byte of memory that nothing has written reads as (10_state.md R59 and D5 give no value).
DESIGN CHOICE, unsafe: log 4. -/
def unlistedByte : Byte := 0

/-- The byte at an address (R55). -/
def Memory.readByte (m : Memory) (a : Nat) : Byte :=
  match m with
  | [] => unlistedByte
  | (b, v) :: rest => if b = a then v else Memory.readByte rest a

/-- Memory with one byte written, in the canonical form. -/
def Memory.writeByte (m : Memory) (a : Nat) (v : Byte) : Memory :=
  match m with
  | [] => if v = unlistedByte then [] else [(a, v)]
  | (b, x) :: rest =>
    if a < b then (if v = unlistedByte then (b, x) :: rest else (a, v) :: (b, x) :: rest)
    else if a = b then (if v = unlistedByte then rest else (a, v) :: rest)
    else (b, x) :: Memory.writeByte rest a v

/-- The canonical form: addresses strictly rising and below 2^32, no entry equal to what an unlisted
address reads as. -/
def Memory.wf (m : Memory) : Bool :=
  match m with
  | [] => true
  | [(a, v)] => decide (a < 2 ^ 32) && v != unlistedByte
  | (a, v) :: (b, x) :: rest =>
    decide (a < b) && v != unlistedByte && Memory.wf ((b, x) :: rest)

/-! ## Reads and writes in the byte order of the platform -/

/-- The byte at an address. -/
def State.readByte (s : State) (a : Nat) : Byte := s.mem.readByte a

/-- MemRead(a, 2), for `a` even (20_memory.md R61 to R63). -/
def State.readHalf (s : State) (a : Word) : Half :=
  let b := fun k => s.readByte (a.toNat + k)
  if s.plat.bigEnd then b 0 ++ b 1 else b 1 ++ b 0

/-- MemRead(a, 4), for `a` a multiple of 4 (20_memory.md R61 to R63). -/
def State.readWord (s : State) (a : Word) : Word :=
  let b := fun k => s.readByte (a.toNat + k)
  if s.plat.bigEnd then b 0 ++ b 1 ++ b 2 ++ b 3 else b 3 ++ b 2 ++ b 1 ++ b 0

/-- One byte written (R64); what it held before joins the stores of the instruction in execution (R81). -/
def State.writeByte (s : State) (a : Nat) (v : Byte) : State :=
  { s with mem := s.mem.writeByte a v, currentStores := s.currentStores ++ [(a, s.readByte a)] }

/-- MemWrite(a, 2, v), for `a` even (R64). -/
def State.writeHalf (s : State) (a : Word) (v : Half) : State :=
  let lo := v.extractLsb' 0 8
  let hi := v.extractLsb' 8 8
  if s.plat.bigEnd then (s.writeByte a.toNat hi).writeByte (a.toNat + 1) lo
  else (s.writeByte a.toNat lo).writeByte (a.toNat + 1) hi

/-- MemWrite(a, 4, v), for `a` a multiple of 4 (R64). -/
def State.writeWord (s : State) (a : Word) (v : Word) : State :=
  let b0 := v.extractLsb' 0 8
  let b1 := v.extractLsb' 8 8
  let b2 := v.extractLsb' 16 8
  let b3 := v.extractLsb' 24 8
  if s.plat.bigEnd then
    (((s.writeByte a.toNat b3).writeByte (a.toNat + 1) b2).writeByte (a.toNat + 2) b1).writeByte (a.toNat + 3) b0
  else
    (((s.writeByte a.toNat b0).writeByte (a.toNat + 1) b1).writeByte (a.toNat + 2) b2).writeByte (a.toNat + 3) b3

/-- An address with bits 1:0 taken as 00 (R67, R68). -/
def wordAligned (a : Word) : Word := a &&& 0xFFFFFFFC#32

/-- An address with bit 0 taken as 0 (10_state.md R33). -/
def halfAligned (a : Word) : Word := a &&& 0xFFFFFFFE#32

/-! ## What the platform answers to an access -/

/-- The answer of the platform to an access: made, aborted (R76), or nothing is there (D5). -/
inductive Grant where
  | granted | aborted | unmapped
  deriving DecidableEq, Repr

/-- Whether a line of the Abort oracle names the access (R76, R84). -/
def AbortRule.names (r : AbortRule) (kind : AccessKind) (p : Privilege) (a : Word) (size : Nat) : Bool :=
  decide (r.first ≤ a.toNat) && decide (a.toNat ≤ r.last) && (r.size == none || r.size == some size) &&
    (r.kind == none || r.kind == some kind) && (r.privilege == none || r.privilege == some p)

/-- Whether a hole of the memory map has a byte of the access (D5). -/
def Hole.touches (h : Hole) (a : Word) (size : Nat) : Bool :=
  decide (h.first < a.toNat + size) && decide (a.toNat ≤ h.last)

/-- The answer of the platform to the access of `size` bytes at `a` (R70, R76; D5, D6). -/
def State.access (s : State) (kind : AccessKind) (p : Privilege) (a : Word) (size : Nat) : Grant :=
  if s.plat.aborts.any (fun r => r.names kind p a size) then .aborted
  else if s.plat.holes.any (fun h => h.touches a size) then .unmapped
  else .granted

/-! ## Modes and registers -/

/-- M[4:0] of a mode (R44). -/
def Mode.bits (m : Mode) : BitVec 5 :=
  match m with
  | .usr => 0b10000 | .fiq => 0b10001 | .irq => 0b10010 | .svc => 0b10011
  | .abt => 0b10111 | .und => 0b11011 | .sys => 0b11111

/-- The mode of M[4:0]; the 25 other values are illegal (R44, R45). -/
def modeOfBits (x : BitVec 5) : Option Mode :=
  match x.toNat with
  | 16 => some .usr | 17 => some .fiq | 18 => some .irq | 19 => some .svc
  | 23 => some .abt | 27 => some .und | 31 => some .sys | _ => none

/-- The current mode. An illegal M[4:0] sees the User registers; the step faults on it first. -/
def State.mode (s : State) : Mode := (modeOfBits s.cpsr.m).getD .usr

/-- The privilege of the accesses of the current mode (R84, 60 R380). -/
def State.privilege (s : State) : Privilege := if s.mode = .usr then .user else .privileged

/-- The place in `State.regs` of r13 of a mode; r14 stands after it (R24, R27). -/
def stackIndex (m : Mode) : Nat :=
  match m with
  | .usr => 13 | .sys => 13 | .fiq => 20 | .irq => 22 | .svc => 24 | .abt => 26 | .und => 28

/-- The place in `State.regs` of register `r` of mode `m`, for `r` other than 15 (R24). -/
def regIndex (m : Mode) (r : Reg) : Fin 30 :=
  let n := r.toNat
  Fin.ofNat 30
    (if n < 8 then n
     else if n < 13 then (if m = .fiq then n + 7 else n)
     else stackIndex m + (n - 13))

/-- The value read from r15 (R31): two instruction lengths on. -/
def State.pcValue (s : State) : Word := if s.cpsr.t then s.cur + 4 else s.cur + 8

/-- The value of a register (R24, R31). -/
def State.readReg (s : State) (r : Reg) : Word :=
  if r = 15 then s.pcValue else s.regs[regIndex s.mode r]

/-- A register written. r15 is written by `branchTo` and what is built on it, never here. -/
def State.writeReg (s : State) (r : Reg) (v : Word) : State :=
  if r = 15 then s else { s with regs := s.regs.set (regIndex s.mode r) v }

/-- The value of a register of the User bank, for `r` other than 15 (45 R237, R239). -/
def State.readUserReg (s : State) (r : Reg) : Word := s.regs[regIndex .usr r]

/-- A register of the User bank written, for `r` other than 15 (45 R237). -/
def State.writeUserReg (s : State) (r : Reg) (v : Word) : State :=
  if r = 15 then s else { s with regs := s.regs.set (regIndex .usr r) v }

/-- A register number of three bits (30 R110). -/
def lowReg (r : LowReg) : Reg := r.setWidth 4

/-- What a store of r15 stores (44 R204). -/
def State.storedPc (s : State) : Word :=
  match s.plat.pcStore with
  | .plus8 => s.cur + 8
  | .plus12 => s.cur + 12

/-- The value a store takes from a register (44 R204, R206). -/
def State.storedReg (s : State) (r : Reg) : Word := if r = 15 then s.storedPc else s.readReg r

/-! ## Status registers -/

/-- A status register as a word (R40). -/
def Psr.toWord (p : Psr) : Word :=
  wordAt 31 (bit p.n) ||| wordAt 30 (bit p.z) ||| wordAt 29 (bit p.c) ||| wordAt 28 (bit p.v) |||
    wordAt 8 p.reserved ||| wordAt 7 (bit p.i) ||| wordAt 6 (bit p.f) ||| wordAt 5 (bit p.t) ||| wordAt 0 p.m

/-- A word as a status register (R40). -/
def psrOfWord (w : Word) : Psr :=
  { n := w.getLsbD 31, z := w.getLsbD 30, c := w.getLsbD 29, v := w.getLsbD 28,
    reserved := w.extractLsb' 8 20, i := w.getLsbD 7, f := w.getLsbD 6, t := w.getLsbD 5,
    m := w.extractLsb' 0 5 }

/-- The condition code flags taken from bits 31:28 of a word. -/
def Psr.withFlagField (p : Psr) (w : Word) : Psr :=
  { p with n := w.getLsbD 31, z := w.getLsbD 30, c := w.getLsbD 29, v := w.getLsbD 28 }

/-- The control bits taken from bits 7:0 of a word. -/
def Psr.withControlField (p : Psr) (w : Word) : Psr :=
  { p with i := w.getLsbD 7, f := w.getLsbD 6, t := w.getLsbD 5, m := w.extractLsb' 0 5 }

/-- The SPSR of a mode; User and System have none (R47). -/
def State.spsrOf (s : State) (m : Mode) : Option Psr :=
  match m with
  | .fiq => some s.spsrFiq
  | .irq => some s.spsrIrq
  | .svc => some s.spsrSvc
  | .abt => some s.spsrAbt
  | .und => some s.spsrUnd
  | .usr => none
  | .sys => none

/-- The SPSR of a mode written; in User and System there is none to write. -/
def State.setSpsrOf (s : State) (m : Mode) (p : Psr) : State :=
  match m with
  | .fiq => { s with spsrFiq := p }
  | .irq => { s with spsrIrq := p }
  | .svc => { s with spsrSvc := p }
  | .abt => { s with spsrAbt := p }
  | .und => { s with spsrUnd := p }
  | .usr => s
  | .sys => s

/-- The CPSR replaced. -/
def State.withCpsr (s : State) (p : Psr) : State := { s with cpsr := p }

/-- One free value drawn: the counter the next draw reads. -/
def State.drawn (s : State) : State := { s with draws := s.draws + 1 }

/-! ## Conditions and refusals -/

/-- ConditionPassed (30 R93). -/
def condHolds (c : Cond) (p : Psr) : Bool :=
  match c with
  | .eq => p.z
  | .ne => !p.z
  | .cs => p.c
  | .cc => !p.c
  | .mi => p.n
  | .pl => !p.n
  | .vs => p.v
  | .vc => !p.v
  | .hi => p.c && !p.z
  | .ls => !p.c || p.z
  | .ge => p.n == p.v
  | .lt => p.n != p.v
  | .gt => !p.z && p.n == p.v
  | .le => p.z || p.n != p.v
  | .al => true

/-- The instruction refused, where its rule calls its operands UNPREDICTABLE. -/
def guarded (r : Option Refusal) (body : Result) : Result :=
  match r with
  | some x => .refused x
  | none => body

/-! ## The program counter -/

/-- The length of an instruction in the current state (30 R90). -/
def State.size (s : State) : Nat := if s.cpsr.t then 2 else 4

/-- On to the next instruction in sequence (10_state.md R32, R34): the stores recorded are one
instruction older (20_memory.md R81), and a User-bank transfer before this instruction is over (45 R244). -/
def State.advance (s : State) : State :=
  { s with cur := s.cur + BitVec.ofNat 32 s.size, pastTop := decide (2 ^ 32 ≤ s.cur.toNat + s.size),
           afterUserBank := false, olderStores := s.recentStores, recentStores := s.currentStores,
           currentStores := [] }

/-- pc <- t: on at `t`, with nothing prefetched (10_state.md R32, 20_memory.md R81), and a User-bank
transfer before this instruction over. -/
def State.branchTo (s : State) (t : Word) : State :=
  { s with cur := t, pastTop := false, afterUserBank := false, currentStores := [], recentStores := [],
           olderStores := [] }

/-- An ARM instruction: its body if its condition passes, else only the advance (30 R92). -/
def conditional (c : Cond) (s : State) (body : Result) : Result :=
  if condHolds c s.cpsr then body else .next s.advance

/-- A write of the pc in ARM state that takes the value as it is (10_state.md R33, 41 R148). -/
def jumpExact (t : Word) (s : State) : Result :=
  if t.extractLsb' 0 2 = 0#2 then .next (s.branchTo t) else .refused .pcMisaligned

/-- BX to `t` (40 R134, 49 R349): bit 0 is the new state. -/
def exchangeTo (t : Word) (s : State) : Result :=
  if t.getLsbD 0 then .next ((s.withCpsr { s.cpsr with t := true }).branchTo (halfAligned t))
  else if t.getLsbD 1 then .refused .exchangeMisaligned
  else .next ((s.withCpsr { s.cpsr with t := false }).branchTo t)

/-! ## Exceptions -/

/-- The exceptions (60 R356). -/
inductive Exception where
  | reset | undefined | swi | prefetchAbort | dataAbort | irq | fiq
  deriving DecidableEq, Repr

/-- The mode an exception enters (60 R356, R358). -/
def Exception.mode (e : Exception) : Mode :=
  match e with
  | .reset => .svc
  | .undefined => .und
  | .swi => .svc
  | .prefetchAbort => .abt
  | .dataAbort => .abt
  | .irq => .irq
  | .fiq => .fiq

/-- The vector of an exception (60 R358). -/
def Exception.vector (e : Exception) : Word :=
  match e with
  | .reset => 0x00
  | .undefined => 0x04
  | .swi => 0x08
  | .prefetchAbort => 0x0C
  | .dataAbort => 0x10
  | .irq => 0x18
  | .fiq => 0x1C

/-- Whether the entry sets F (60 R358, R360). -/
def Exception.masksFiq (e : Exception) : Bool := e == .reset || e == .fiq

/-- The CPSR after the entry (60 R360). -/
def Exception.status (e : Exception) (old : Psr) : Psr :=
  { old with m := e.mode.bits, t := false, i := true, f := old.f || e.masksFiq }

/-- Taking an exception with return value `ret` (60 R360): r14 and SPSR of the new mode written, the
status changed, the pc at the vector. -/
def enterException (e : Exception) (ret : Word) (s : State) : State :=
  let linked : State := { s with regs := s.regs.set (regIndex e.mode 14) ret }
  ((linked.setSpsrOf e.mode s.cpsr).withCpsr (e.status s.cpsr)).branchTo e.vector

/-- Undefined Instruction (46 R258, 60 R361). -/
def takeUndefined (s : State) : State := enterException .undefined (s.cur + BitVec.ofNat 32 s.size) s

/-- Software Interrupt (46 R250, 49 R343, 60 R361). -/
def takeSwi (s : State) : State := enterException .swi (s.cur + BitVec.ofNat 32 s.size) s

/-- Data Abort (60 R361, R367): the return value is cur + 8 in both states. -/
def takeDataAbort (s : State) : State := enterException .dataAbort (s.cur + 8) s

/-- An exception that an instruction raises itself, taken by `take`: right after LDM (2) or STM (2) an
instruction must not write r14 of the mode it is in (45 R244, 70 R413; log 16). -/
def raised (e : Exception) (take : State → State) (s : State) : Result :=
  guarded (if s.afterUserBank && s.mode == e.mode then some .bankedAfterUserBank else none) (.next (take s))

/-- The entry of an exception that no instruction raises. No instruction has been executed: a User-bank
transfer just before is not over (log 16). -/
def interrupted (e : Exception) (s : State) : State :=
  { enterException e (s.cur + 4) s with afterUserBank := s.afterUserBank }

/-- Prefetch Abort (60 R361, R366): cur + 4 in both states. -/
def takePrefetchAbort (s : State) : State := interrupted .prefetchAbort s

/-- IRQ (60 R361, R369): cur + 4 in both states. -/
def takeIrq (s : State) : State := interrupted .irq s

/-- FIQ (60 R361, R368): cur + 4 in both states. -/
def takeFiq (s : State) : State := interrupted .fiq s

/-- Reset of a running machine (70 R400): entry with free values in r14_svc and SPSR_svc (log 14). A
User-bank transfer still in progress is abandoned with the rest. -/
def takeReset (s : State) : State :=
  let e := enterException .reset (Config.resetLink s.draws) s
  { e with spsrSvc := psrOfWord (Config.resetStatus s.draws), draws := s.draws + 1 }

/-- Return from an exception to `t` (60 R376, 41 R149, 45 R236): CPSR <- SPSR of the current mode, all
of it, and pc <- t as the restored T says. An illegal mode in the SPSR is looked at before the bits 1:0 of `t`:
DESIGN CHOICE, log 27. -/
def exceptionReturn (t : Word) (s : State) : Result :=
  match s.spsrOf s.mode with
  | none => .refused .noSpsr
  | some p =>
    if modeOfBits p.m = none then .fault .illegalMode
    else if p.t then .next ((s.withCpsr p).branchTo (halfAligned t))
    else jumpExact t (s.withCpsr p)

end Sys2Proof.Machine
end

