-- ==== Sys2Proof/Machine/Flags.lean ====
section
/-! DEFINITION. Arithmetic and the flags (41_arm_data_processing.md R146, R147, R150 to R165). -/

namespace Sys2Proof.Machine

/-- A result with the C and V it gives; `none` leaves the flag as it is. -/
structure AluResult where
  value : Word
  carry : Option Bool
  overflow : Option Bool
  deriving DecidableEq, Repr

/-- AddWithCarry (R146): the exact sums, unsigned and signed, against the wrapped result. -/
def addWithCarry (a b : Word) (c : Bool) : AluResult :=
  let usum := a.toNat + b.toNat + c.toNat
  let ssum := a.toInt + b.toInt + c.toNat
  { value := BitVec.ofNat 32 usum, carry := some (decide (2 ^ 32 ≤ usum)),
    overflow := some (decide (ssum < -2 ^ 31) || decide (2 ^ 31 - 1 < ssum)) }

/-- The result of a data-processing operation: `a` the first operand, `op2` and `sco` the shifter's,
`c` the carry flag (R150 to R165). -/
def alu (op : AluOp) (a op2 : Word) (sco : Option Bool) (c : Bool) : AluResult :=
  match op with
  | .and => ⟨a &&& op2, sco, none⟩
  | .eor => ⟨a ^^^ op2, sco, none⟩
  | .sub => addWithCarry a (~~~op2) true
  | .rsb => addWithCarry op2 (~~~a) true
  | .add => addWithCarry a op2 false
  | .adc => addWithCarry a op2 c
  | .sbc => addWithCarry a (~~~op2) c
  | .rsc => addWithCarry op2 (~~~a) c
  | .tst => ⟨a &&& op2, sco, none⟩
  | .teq => ⟨a ^^^ op2, sco, none⟩
  | .cmp => addWithCarry a (~~~op2) true
  | .cmn => addWithCarry a op2 false
  | .orr => ⟨a ||| op2, sco, none⟩
  | .mov => ⟨op2, sco, none⟩
  | .bic => ⟨a &&& ~~~op2, sco, none⟩
  | .mvn => ⟨~~~op2, sco, none⟩

/-- The flags of a result (R147). -/
def Psr.withResult (p : Psr) (r : AluResult) : Psr :=
  { p with n := r.value.msb, z := r.value == 0, c := r.carry.getD p.c, v := r.overflow.getD p.v }

/-- The flags of a 32-bit product: N and Z of it, C free, V kept (43 R191, R192, 47 R293). -/
def Psr.withProduct (p : Psr) (value : Word) (freeC : Bool) : Psr :=
  { p with n := value.msb, z := value == 0, c := freeC }

/-- The flags of a 64-bit product: N and Z of it, C and V free (43 R193). -/
def Psr.withLongProduct (p : Psr) (value : BitVec 64) (freeC freeV : Bool) : Psr :=
  { p with n := value.msb, z := value == 0, c := freeC, v := freeV }

end Sys2Proof.Machine
end

