-- ==== Sys2Proof/Machine/Operands.lean ====
section
/-! DEFINITION. Operand forms: the shifter operand (41 R140 to R143), the addressing modes (44 R201,
R202, R214; 45 R231; 46 R254), register lists, and the operand combinations the rules refuse. -/

namespace Sys2Proof.Machine

/-! ## The shifter operand -/

/-- op2 and the shifter carry-out; `none` leaves C as it is (R140). -/
structure Shifted where
  value : Word
  carry : Option Bool
  deriving DecidableEq, Repr

/-- A rotated immediate (R141). -/
def immediateOperand (rot : BitVec 4) (imm : BitVec 8) : Shifted :=
  let value := (imm.setWidth 32 : Word).rotateRight (2 * rot.toNat)
  { value := value, carry := if rot = 0#4 then none else some value.msb }

/-- 32 copies of bit 31. -/
def signFill (m : Word) : Word := if m.msb then 0xFFFFFFFF#32 else 0#32

/-- A register shifted by an immediate (R142); `c` is the carry flag. -/
def shiftByImmediate (sh : Shift) (m : Word) (amount : BitVec 5) (c : Bool) : Shifted :=
  let n := amount.toNat
  match sh with
  | .lsl => if n = 0 then ⟨m, none⟩ else ⟨m <<< n, some (m.getLsbD (32 - n))⟩
  | .lsr => if n = 0 then ⟨0, some m.msb⟩ else ⟨m >>> n, some (m.getLsbD (n - 1))⟩
  | .asr => if n = 0 then ⟨signFill m, some m.msb⟩ else ⟨m.sshiftRight n, some (m.getLsbD (n - 1))⟩
  | .ror =>
    if n = 0 then ⟨wordAt 31 (bit c) ||| m >>> 1, some (m.getLsbD 0)⟩
    else ⟨m.rotateRight n, some (m.getLsbD (n - 1))⟩

/-- A register shifted by a register (R143); `amountReg` is the value of Rs, of which bits 7:0
count. -/
def shiftByRegister (sh : Shift) (m amountReg : Word) : Shifted :=
  let n := (amountReg.extractLsb' 0 8).toNat
  if n = 0 then ⟨m, none⟩
  else
    match sh with
    | .lsl =>
      if n < 32 then ⟨m <<< n, some (m.getLsbD (32 - n))⟩
      else if n = 32 then ⟨0, some (m.getLsbD 0)⟩ else ⟨0, some false⟩
    | .lsr =>
      if n < 32 then ⟨m >>> n, some (m.getLsbD (n - 1))⟩
      else if n = 32 then ⟨0, some m.msb⟩ else ⟨0, some false⟩
    | .asr => if n < 32 then ⟨m.sshiftRight n, some (m.getLsbD (n - 1))⟩ else ⟨signFill m, some m.msb⟩
    | .ror =>
      if n % 32 = 0 then ⟨m, some m.msb⟩
      else ⟨m.rotateRight (n % 32), some (m.getLsbD (n % 32 - 1))⟩

/-! ## Addresses of single transfers -/

/-- The address of a transfer and, where the form writes the base back, its new value. -/
structure Address where
  address : Word
  writeBack : Option Word
  deriving DecidableEq, Repr

/-- The base plus or minus the offset (44 R201). -/
def indexed (u : Bool) (base off : Word) : Word := if u then base + off else base - off

/-- The addressing modes (44 R202). -/
def addressOf (p u w : Bool) (base off : Word) : Address :=
  let index := indexed u base off
  if p then ⟨index, if w then some index else none⟩ else ⟨base, some index⟩

/-- The addressing modes of LDC and STC (46 R254): the base is written back if W = 1, and the form
with P = 0 and W = 0 uses the base as it is. -/
def coprocAddressOf (p u w : Bool) (base : Word) (off : BitVec 8) : Address :=
  let index := indexed u base (off.setWidth 32 <<< 2)
  ⟨if p then index else base, if w then some index else none⟩

/-- The write-back of a base register. -/
def State.writtenBack (s : State) (rn : Reg) (wb : Option Word) : State :=
  match wb with
  | some v => s.writeReg rn v
  | none => s

/-- The combinations of 44 R203 and R214 for a single transfer: `wb` says that the form writes the
base back, `noPc` that Rd = 15 is forbidden, `rm` the offset register, if any. -/
def transferRefusal (wb noPc : Bool) (rn rd : Reg) (rm : Option Reg) : Option Refusal :=
  if rm = some 15 then some .pcOperand
  else if noPc && rd == 15 then some .pcOperand
  else if wb && rn == 15 then some .pcOperand
  else if wb && rd == rn then some .writeBack
  else if wb && rm == some rn then some .writeBack
  else none

/-! ## Block transfers -/

/-- The registers of a list, ascending (45 R231). -/
def registersOf (list : BitVec 16) : List Reg :=
  ((List.range 16).filter (fun k => list.getLsbD k)).map (BitVec.ofNat 4)

/-- The registers of a Thumb list, ascending. -/
def lowRegistersOf (list : BitVec 8) : List Reg := registersOf (list.setWidth 16)

/-- 4 n. -/
def blockBytes (n : Nat) : Word := BitVec.ofNat 32 (4 * n)

/-- start_address of a block of `n` words (45 R231). -/
def blockStart (p u : Bool) (base : Word) (n : Nat) : Word :=
  match p, u with
  | false, true => base
  | true, true => base + 4
  | false, false => base - blockBytes n + 4
  | true, false => base - blockBytes n

/-- The final value of the base (45 R231). -/
def blockFinal (u : Bool) (base : Word) (n : Nat) : Word :=
  if u then base + blockBytes n else base - blockBytes n

/-- The combinations of 45 R233 common to all block transfers. -/
def blockRefusal (rn : Reg) (rs : List Reg) : Option Refusal :=
  if rs.isEmpty then some .emptyList else if rn = 15 then some .pcOperand else none

/-- LDM with write-back and the base in the list (45 R233). -/
def loadBaseRefusal (w : Bool) (rn : Reg) (rs : List Reg) : Option Refusal :=
  if w && rs.contains rn then some .baseInList else none

/-- STM with write-back, or the Thumb STMIA, and the base in the list, but not the lowest of it (45 R233, 48
R333). -/
def storeBaseRefusal (w : Bool) (rn : Reg) (rs : List Reg) : Option Refusal :=
  if w && rs.contains rn && rs.head? != some rn then some .baseInList else none

/-- LDM (2) and STM (2): no write-back, and not in User or System mode (45 R233). -/
def userBankRefusal (w : Bool) (m : Mode) : Option Refusal :=
  if m = .usr || m = .sys then some .userBankMode
  else if w then some .userBankWriteBack else none

/-! ## Other operand checks -/

/-- r15 where the rule forbids it. -/
def pcRefusal (rs : List Reg) : Option Refusal := if rs.contains 15 then some .pcOperand else none

/-- Two registers that must differ. -/
def sameRefusal (a b : Reg) : Option Refusal := if a = b then some .sameRegister else none

/-- Format 5 with both registers low (30 R118 item 5, 47 R296). -/
def bothLowRefusal (d s : Reg) : Option Refusal :=
  if !d.getLsbD 3 && !s.getLsbD 3 then some .bothLow else none

end Sys2Proof.Machine
end

