-- ==== Sys2Proof/Machine/Transfer.lean ====
section
/-! DEFINITION. Single and block transfers between registers and memory, shared by the ARM and the
Thumb instructions (44 R205 to R218, 45 R231 to R242, 48 R310 to R334). -/

namespace Sys2Proof.Machine

/-- What a load reads and how it extends it (20_memory.md R67, R72, R83). -/
inductive LoadKind where
  | word | byte | signedByte | half | signedHalf
  deriving DecidableEq, Repr

/-- What a store writes (20_memory.md R68, R72, R83). -/
inductive StoreKind where
  | word | byte | half
  deriving DecidableEq, Repr

/-- The bytes a load reads. -/
def LoadKind.size (k : LoadKind) : Nat :=
  match k with
  | .word => 4
  | .byte => 1
  | .signedByte => 1
  | .half => 2
  | .signedHalf => 2

/-- The bytes a store writes. -/
def StoreKind.size (k : StoreKind) : Nat :=
  match k with
  | .word => 4
  | .byte => 1
  | .half => 2

/-- The address put on the bus: a word access ignores bits 1:0 (R67, R68). -/
def busAddress (size : Nat) (a : Word) : Word := if size = 4 then wordAligned a else a

/-- A halfword access at an odd address (R69). -/
def oddRefusal (size : Nat) (a : Word) : Option Refusal :=
  if size = 2 && a.getLsbD 0 then some .oddHalfword else none

/-- A word at an address, rotated as its bits 1:0 say (R67). -/
def State.readRotated (s : State) (a : Word) : Word :=
  (s.readWord (wordAligned a)).rotateRight (8 * (a.extractLsb' 0 2).toNat)

/-- The value a load gives (R67, R83). -/
def State.loaded (s : State) (k : LoadKind) (a : Word) : Word :=
  match k with
  | .word => s.readRotated a
  | .byte => (s.readByte a.toNat).setWidth 32
  | .signedByte => (s.readByte a.toNat).signExtend 32
  | .half => (s.readHalf a).setWidth 32
  | .signedHalf => (s.readHalf a).signExtend 32

/-- Memory with a value stored (R68, R83). -/
def State.stored (s : State) (k : StoreKind) (a v : Word) : State :=
  match k with
  | .word => s.writeWord (wordAligned a) v
  | .byte => s.writeByte a.toNat (v.setWidth 8)
  | .half => s.writeHalf a (v.setWidth 16)

/-- A single load to `rd` (44 R205, R207): `priv` is the privilege the access is signalled with, `rn`
the base. An aborted load writes the base back and not `rd`. r15 takes a word with bits 1:0 as 00. -/
def load (k : LoadKind) (priv : Privilege) (rn rd : Reg) (a : Address) (s : State) : Result :=
  guarded (oddRefusal k.size a.address)
    (match s.access .read priv (busAddress k.size a.address) k.size with
     | .unmapped => .fault .unmapped
     | .aborted => raised .dataAbort takeDataAbort (s.writtenBack rn a.writeBack)
     | .granted =>
       let v := s.loaded k a.address
       let based := s.writtenBack rn a.writeBack
       if rd = 15 then .next (based.branchTo (wordAligned v))
       else .next (based.writeReg rd v).advance)

/-- A single store of the value `v` (44 R206, R207). An aborted store writes the base back and no
memory. -/
def store (k : StoreKind) (priv : Privilege) (rn : Reg) (v : Word) (a : Address) (s : State) : Result :=
  guarded (oddRefusal k.size a.address)
    (match s.access .write priv (busAddress k.size a.address) k.size with
     | .unmapped => .fault .unmapped
     | .aborted => raised .dataAbort takeDataAbort (s.writtenBack rn a.writeBack)
     | .granted => .next ((s.stored k a.address v).writtenBack rn a.writeBack).advance)

/-- `n` words read in ascending order from `a` on, up to the first that is not granted, with the
answer to the last access (45 R234, R242). -/
def readWords (priv : Privilege) (s : State) (a : Word) (n : Nat) : List Word × Grant :=
  match n with
  | 0 => ([], .granted)
  | k + 1 =>
    match s.access .read priv (wordAligned a) 4 with
    | .granted =>
      let tail := readWords priv s (a + 4) k
      (s.readWord (wordAligned a) :: tail.1, tail.2)
    | g => ([], g)

/-- The words of a block store, written in ascending order, those that abort left out; whether one
aborted; none where nothing is mapped (45 R238, R242). -/
def writeBlock (priv : Privilege) (s : State) (a : Word) (vs : List Word) : Option (State × Bool) :=
  match vs with
  | [] => some (s, false)
  | v :: rest =>
    match s.access .write priv (wordAligned a) 4 with
    | .granted => writeBlock priv (s.writeWord (wordAligned a) v) (a + 4) rest
    | .aborted => (writeBlock priv s (a + 4) rest).map (fun x => (x.1, true))
    | .unmapped => none

/-- The registers loaded, r15 apart (45 R234). -/
def State.withLoaded (s : State) (vs : List (Reg × Word)) : State :=
  vs.foldl (fun t x => t.writeReg x.1 x.2) s

/-- The same into the User bank (45 R237). -/
def State.withLoadedUser (s : State) (vs : List (Reg × Word)) : State :=
  vs.foldl (fun t x => t.writeUserReg x.1 x.2) s

/-- The word loaded for r15, if it is in the list: it is the last (45 R235). -/
def loadedPc (vs : List (Reg × Word)) : Option Word := (vs.find? (fun x => x.1 == 15)).map (·.2)

/-- What an aborted block load leaves before its Data Abort (45 R242): the words read are in their
registers, and the base holds its final value, or its original one without write-back. -/
def abortedLoad (rn : Reg) (base : Word) (wb : Option Word) (loaded : State) : State :=
  loaded.writeReg rn (wb.getD base)

/-- A block load of the registers `rs` from `a` on (45 R234, R242): `base` is the base before, `wb` its
final value if it is written back, `place` the bank the words go to, `finish` what is done with the word
of r15, if there is one. -/
def loadBlock (rn : Reg) (base a : Word) (rs : List Reg) (wb : Option Word)
    (place : State → List (Reg × Word) → State) (finish : Option Word → State → Result) (s : State) : Result :=
  let read := readWords s.privilege s a rs.length
  let vs := rs.zip read.1
  match read.2 with
  | .unmapped => .fault .unmapped
  | .aborted => raised .dataAbort takeDataAbort (abortedLoad rn base wb (place s vs))
  | .granted => finish (loadedPc vs) (place (s.writtenBack rn wb) vs)

/-- A block store of the values `vs` from `a` on (45 R238, R242). -/
def storeBlock (rn : Reg) (a : Word) (vs : List Word) (wb : Option Word) (s : State) : Result :=
  match writeBlock s.privilege s a vs with
  | none => .fault .unmapped
  | some (t, aborted) =>
    let based := t.writtenBack rn wb
    if aborted then raised .dataAbort takeDataAbort based else .next based.advance

end Sys2Proof.Machine
end

