-- ==== Sys2Proof/Machine/ArmBlock.lean ====
section
/-! DEFINITION. ARM block transfers, LDM and STM (45_arm_block_transfer.md). -/

namespace Sys2Proof.Machine

/-- The final value of the base if W = 1 (R231). -/
def State.blockWriteBack (s : State) (u w : Bool) (rn : Reg) (n : Nat) : Option Word :=
  if w then some (blockFinal u (s.readReg rn) n) else none

/-- The addresses and the write-back of an LDM (R231, R234). -/
def blockLoad (p u w : Bool) (rn : Reg) (rs : List Reg) (place : State → List (Reg × Word) → State)
    (finish : Option Word → State → Result) (s : State) : Result :=
  let base := s.readReg rn
  loadBlock rn base (blockStart p u base rs.length) rs (s.blockWriteBack u w rn rs.length) place finish s

/-- An LDM ends: r15, if loaded, with bits 1:0 as 00 and the state kept (R235). -/
def finishLoad (pc : Option Word) (s : State) : Result :=
  match pc with
  | some v => .next (s.branchTo (wordAligned v))
  | none => .next s.advance

/-- LDM (1) (R234, R235). -/
def execLdm1 (c : Cond) (p u w : Bool) (rn : Reg) (list : BitVec 16) (s : State) : Result :=
  let rs := registersOf list
  conditional c s (guarded (blockRefusal rn rs) (guarded (loadBaseRefusal w rn rs)
    (blockLoad p u w rn rs State.withLoaded finishLoad s)))

/-- The instruction was an LDM (2) or an STM (2): the next must leave the banked registers alone (R244). -/
def leavesUserBank (r : Result) : Result :=
  match r with
  | .next s => .next { s with afterUserBank := true }
  | .fault x => .fault x
  | .refused x => .refused x

/-- LDM (2) (R237). -/
def execLdm2 (c : Cond) (p u w : Bool) (rn : Reg) (list : BitVec 15) (s : State) : Result :=
  let rs := registersOf (list.setWidth 16)
  conditional c s (guarded (blockRefusal rn rs) (guarded (userBankRefusal w s.mode)
    (leavesUserBank (blockLoad p u w rn rs State.withLoadedUser finishLoad s))))

/-- The registers of an LDM (3): those of its list and r15 (R236). -/
def returnRegisters (list : BitVec 15) : List Reg := registersOf (list.setWidth 16 ||| 0x8000#16)

/-- LDM (3) ends: the return from the exception to the word loaded for r15 (R236). -/
def finishReturn (pc : Option Word) (s : State) : Result :=
  match pc with
  | some v => exceptionReturn v s
  | none => .next s.advance

/-- LDM (3) (R236). -/
def execLdm3 (c : Cond) (p u w : Bool) (rn : Reg) (list : BitVec 15) (s : State) : Result :=
  let rs := returnRegisters list
  conditional c s (guarded (blockRefusal rn rs) (guarded (loadBaseRefusal w rn rs)
    (guarded (if (s.spsrOf s.mode).isNone then some .noSpsr else none)
      (blockLoad p u w rn rs State.withLoaded finishReturn s))))

/-- The addresses and the write-back of an STM of the values `vs` (R231, R238). -/
def blockStore (p u w : Bool) (rn : Reg) (vs : List Word) (s : State) : Result :=
  storeBlock rn (blockStart p u (s.readReg rn) vs.length) vs (s.blockWriteBack u w rn vs.length) s

/-- STM (1) (R238). -/
def execStm1 (c : Cond) (p u w : Bool) (rn : Reg) (list : BitVec 16) (s : State) : Result :=
  let rs := registersOf list
  conditional c s (guarded (blockRefusal rn rs) (guarded (storeBaseRefusal w rn rs)
    (blockStore p u w rn (rs.map s.storedReg) s)))

/-- The value STM (2) takes from a register (R239). -/
def State.storedUserReg (s : State) (r : Reg) : Word := if r = 15 then s.storedPc else s.readUserReg r

/-- STM (2) (R239). -/
def execStm2 (c : Cond) (p u w : Bool) (rn : Reg) (list : BitVec 16) (s : State) : Result :=
  let rs := registersOf list
  conditional c s (guarded (blockRefusal rn rs) (guarded (userBankRefusal w s.mode)
    (leavesUserBank (blockStore p u w rn (rs.map s.storedUserReg) s))))

end Sys2Proof.Machine
end

