-- ==== Sys2Proof/Machine/ArmData.lean ====
section
/-! DEFINITION. ARM data processing (41_arm_data_processing.md). -/

namespace Sys2Proof.Machine

/-- A data-processing instruction with its second operand (41 R147 to R149): a compare writes the flags,
the others Rd, and with S = 1 the flags; Rd = 15 is a jump, with S = 1 a return from an exception. -/
def dataProcess (op : AluOp) (setFlags : Bool) (rn rd : Reg) (o : Shifted) (s : State) : Result :=
  let r := alu op (s.readReg rn) o.value o.carry s.cpsr.c
  let flagged := s.withCpsr (s.cpsr.withResult r)
  if op.compares then .next flagged.advance
  else if rd = 15 then (if setFlags then exceptionReturn r.value s else jumpExact r.value s)
  else .next ((if setFlags then flagged else s).writeReg rd r.value).advance

/-- The immediate layout (41 R141). -/
def dataImmediate (op : AluOp) (c : Cond) (setFlags : Bool) (rn rd : Reg) (rot : BitVec 4) (imm : BitVec 8)
    (s : State) : Result :=
  conditional c s (dataProcess op setFlags rn rd (immediateOperand rot imm) s)

/-- Register shifted by immediate (41 R142, R144). -/
def dataShiftImmediate (op : AluOp) (c : Cond) (setFlags : Bool) (rn rd : Reg) (n : BitVec 5) (sh : Shift)
    (rm : Reg) (s : State) : Result :=
  conditional c s (dataProcess op setFlags rn rd (shiftByImmediate sh (s.readReg rm) n s.cpsr.c) s)

/-- Register shifted by register (41 R143); r15 anywhere is refused (R145). -/
def dataShiftRegister (op : AluOp) (c : Cond) (setFlags : Bool) (rn rd rs : Reg) (sh : Shift) (rm : Reg)
    (s : State) : Result :=
  conditional c s (guarded (pcRefusal [rn, rd, rs, rm])
    (dataProcess op setFlags rn rd (shiftByRegister sh (s.readReg rm) (s.readReg rs)) s))

/-- AND, immediate (41 R150). -/
def execAndImm (c : Cond) (setFlags : Bool) (rn rd : Reg) (rot : BitVec 4) (imm : BitVec 8) (s : State) : Result :=
  dataImmediate .and c setFlags rn rd rot imm s

/-- AND, register shifted by immediate (41 R150). -/
def execAndShImm (c : Cond) (setFlags : Bool) (rn rd : Reg) (n : BitVec 5) (sh : Shift) (rm : Reg) (s : State) : Result :=
  dataShiftImmediate .and c setFlags rn rd n sh rm s

/-- AND, register shifted by register (41 R150). -/
def execAndShReg (c : Cond) (setFlags : Bool) (rn rd : Reg) (rs : Reg) (sh : Shift) (rm : Reg) (s : State) : Result :=
  dataShiftRegister .and c setFlags rn rd rs sh rm s

/-- EOR, immediate (41 R151). -/
def execEorImm (c : Cond) (setFlags : Bool) (rn rd : Reg) (rot : BitVec 4) (imm : BitVec 8) (s : State) : Result :=
  dataImmediate .eor c setFlags rn rd rot imm s

/-- EOR, register shifted by immediate (41 R151). -/
def execEorShImm (c : Cond) (setFlags : Bool) (rn rd : Reg) (n : BitVec 5) (sh : Shift) (rm : Reg) (s : State) : Result :=
  dataShiftImmediate .eor c setFlags rn rd n sh rm s

/-- EOR, register shifted by register (41 R151). -/
def execEorShReg (c : Cond) (setFlags : Bool) (rn rd : Reg) (rs : Reg) (sh : Shift) (rm : Reg) (s : State) : Result :=
  dataShiftRegister .eor c setFlags rn rd rs sh rm s

/-- SUB, immediate (41 R152). -/
def execSubImm (c : Cond) (setFlags : Bool) (rn rd : Reg) (rot : BitVec 4) (imm : BitVec 8) (s : State) : Result :=
  dataImmediate .sub c setFlags rn rd rot imm s

/-- SUB, register shifted by immediate (41 R152). -/
def execSubShImm (c : Cond) (setFlags : Bool) (rn rd : Reg) (n : BitVec 5) (sh : Shift) (rm : Reg) (s : State) : Result :=
  dataShiftImmediate .sub c setFlags rn rd n sh rm s

/-- SUB, register shifted by register (41 R152). -/
def execSubShReg (c : Cond) (setFlags : Bool) (rn rd : Reg) (rs : Reg) (sh : Shift) (rm : Reg) (s : State) : Result :=
  dataShiftRegister .sub c setFlags rn rd rs sh rm s

/-- RSB, immediate (41 R153). -/
def execRsbImm (c : Cond) (setFlags : Bool) (rn rd : Reg) (rot : BitVec 4) (imm : BitVec 8) (s : State) : Result :=
  dataImmediate .rsb c setFlags rn rd rot imm s

/-- RSB, register shifted by immediate (41 R153). -/
def execRsbShImm (c : Cond) (setFlags : Bool) (rn rd : Reg) (n : BitVec 5) (sh : Shift) (rm : Reg) (s : State) : Result :=
  dataShiftImmediate .rsb c setFlags rn rd n sh rm s

/-- RSB, register shifted by register (41 R153). -/
def execRsbShReg (c : Cond) (setFlags : Bool) (rn rd : Reg) (rs : Reg) (sh : Shift) (rm : Reg) (s : State) : Result :=
  dataShiftRegister .rsb c setFlags rn rd rs sh rm s

/-- ADD, immediate (41 R154). -/
def execAddImm (c : Cond) (setFlags : Bool) (rn rd : Reg) (rot : BitVec 4) (imm : BitVec 8) (s : State) : Result :=
  dataImmediate .add c setFlags rn rd rot imm s

/-- ADD, register shifted by immediate (41 R154). -/
def execAddShImm (c : Cond) (setFlags : Bool) (rn rd : Reg) (n : BitVec 5) (sh : Shift) (rm : Reg) (s : State) : Result :=
  dataShiftImmediate .add c setFlags rn rd n sh rm s

/-- ADD, register shifted by register (41 R154). -/
def execAddShReg (c : Cond) (setFlags : Bool) (rn rd : Reg) (rs : Reg) (sh : Shift) (rm : Reg) (s : State) : Result :=
  dataShiftRegister .add c setFlags rn rd rs sh rm s

/-- ADC, immediate (41 R155). -/
def execAdcImm (c : Cond) (setFlags : Bool) (rn rd : Reg) (rot : BitVec 4) (imm : BitVec 8) (s : State) : Result :=
  dataImmediate .adc c setFlags rn rd rot imm s

/-- ADC, register shifted by immediate (41 R155). -/
def execAdcShImm (c : Cond) (setFlags : Bool) (rn rd : Reg) (n : BitVec 5) (sh : Shift) (rm : Reg) (s : State) : Result :=
  dataShiftImmediate .adc c setFlags rn rd n sh rm s

/-- ADC, register shifted by register (41 R155). -/
def execAdcShReg (c : Cond) (setFlags : Bool) (rn rd : Reg) (rs : Reg) (sh : Shift) (rm : Reg) (s : State) : Result :=
  dataShiftRegister .adc c setFlags rn rd rs sh rm s

/-- SBC, immediate (41 R156). -/
def execSbcImm (c : Cond) (setFlags : Bool) (rn rd : Reg) (rot : BitVec 4) (imm : BitVec 8) (s : State) : Result :=
  dataImmediate .sbc c setFlags rn rd rot imm s

/-- SBC, register shifted by immediate (41 R156). -/
def execSbcShImm (c : Cond) (setFlags : Bool) (rn rd : Reg) (n : BitVec 5) (sh : Shift) (rm : Reg) (s : State) : Result :=
  dataShiftImmediate .sbc c setFlags rn rd n sh rm s

/-- SBC, register shifted by register (41 R156). -/
def execSbcShReg (c : Cond) (setFlags : Bool) (rn rd : Reg) (rs : Reg) (sh : Shift) (rm : Reg) (s : State) : Result :=
  dataShiftRegister .sbc c setFlags rn rd rs sh rm s

/-- RSC, immediate (41 R157). -/
def execRscImm (c : Cond) (setFlags : Bool) (rn rd : Reg) (rot : BitVec 4) (imm : BitVec 8) (s : State) : Result :=
  dataImmediate .rsc c setFlags rn rd rot imm s

/-- RSC, register shifted by immediate (41 R157). -/
def execRscShImm (c : Cond) (setFlags : Bool) (rn rd : Reg) (n : BitVec 5) (sh : Shift) (rm : Reg) (s : State) : Result :=
  dataShiftImmediate .rsc c setFlags rn rd n sh rm s

/-- RSC, register shifted by register (41 R157). -/
def execRscShReg (c : Cond) (setFlags : Bool) (rn rd : Reg) (rs : Reg) (sh : Shift) (rm : Reg) (s : State) : Result :=
  dataShiftRegister .rsc c setFlags rn rd rs sh rm s

/-- TST, immediate (41 R158). -/
def execTstImm (c : Cond) (rn : Reg) (rot : BitVec 4) (imm : BitVec 8) (s : State) : Result :=
  dataImmediate .tst c true rn 0 rot imm s

/-- TST, register shifted by immediate (41 R158). -/
def execTstShImm (c : Cond) (rn : Reg) (n : BitVec 5) (sh : Shift) (rm : Reg) (s : State) : Result :=
  dataShiftImmediate .tst c true rn 0 n sh rm s

/-- TST, register shifted by register (41 R158). -/
def execTstShReg (c : Cond) (rn : Reg) (rs : Reg) (sh : Shift) (rm : Reg) (s : State) : Result :=
  dataShiftRegister .tst c true rn 0 rs sh rm s

/-- TEQ, immediate (41 R159). -/
def execTeqImm (c : Cond) (rn : Reg) (rot : BitVec 4) (imm : BitVec 8) (s : State) : Result :=
  dataImmediate .teq c true rn 0 rot imm s

/-- TEQ, register shifted by immediate (41 R159). -/
def execTeqShImm (c : Cond) (rn : Reg) (n : BitVec 5) (sh : Shift) (rm : Reg) (s : State) : Result :=
  dataShiftImmediate .teq c true rn 0 n sh rm s

/-- TEQ, register shifted by register (41 R159). -/
def execTeqShReg (c : Cond) (rn : Reg) (rs : Reg) (sh : Shift) (rm : Reg) (s : State) : Result :=
  dataShiftRegister .teq c true rn 0 rs sh rm s

/-- CMP, immediate (41 R160). -/
def execCmpImm (c : Cond) (rn : Reg) (rot : BitVec 4) (imm : BitVec 8) (s : State) : Result :=
  dataImmediate .cmp c true rn 0 rot imm s

/-- CMP, register shifted by immediate (41 R160). -/
def execCmpShImm (c : Cond) (rn : Reg) (n : BitVec 5) (sh : Shift) (rm : Reg) (s : State) : Result :=
  dataShiftImmediate .cmp c true rn 0 n sh rm s

/-- CMP, register shifted by register (41 R160). -/
def execCmpShReg (c : Cond) (rn : Reg) (rs : Reg) (sh : Shift) (rm : Reg) (s : State) : Result :=
  dataShiftRegister .cmp c true rn 0 rs sh rm s

/-- CMN, immediate (41 R161). -/
def execCmnImm (c : Cond) (rn : Reg) (rot : BitVec 4) (imm : BitVec 8) (s : State) : Result :=
  dataImmediate .cmn c true rn 0 rot imm s

/-- CMN, register shifted by immediate (41 R161). -/
def execCmnShImm (c : Cond) (rn : Reg) (n : BitVec 5) (sh : Shift) (rm : Reg) (s : State) : Result :=
  dataShiftImmediate .cmn c true rn 0 n sh rm s

/-- CMN, register shifted by register (41 R161). -/
def execCmnShReg (c : Cond) (rn : Reg) (rs : Reg) (sh : Shift) (rm : Reg) (s : State) : Result :=
  dataShiftRegister .cmn c true rn 0 rs sh rm s

/-- ORR, immediate (41 R162). -/
def execOrrImm (c : Cond) (setFlags : Bool) (rn rd : Reg) (rot : BitVec 4) (imm : BitVec 8) (s : State) : Result :=
  dataImmediate .orr c setFlags rn rd rot imm s

/-- ORR, register shifted by immediate (41 R162). -/
def execOrrShImm (c : Cond) (setFlags : Bool) (rn rd : Reg) (n : BitVec 5) (sh : Shift) (rm : Reg) (s : State) : Result :=
  dataShiftImmediate .orr c setFlags rn rd n sh rm s

/-- ORR, register shifted by register (41 R162). -/
def execOrrShReg (c : Cond) (setFlags : Bool) (rn rd : Reg) (rs : Reg) (sh : Shift) (rm : Reg) (s : State) : Result :=
  dataShiftRegister .orr c setFlags rn rd rs sh rm s

/-- MOV, immediate (41 R163). -/
def execMovImm (c : Cond) (setFlags : Bool) (rd : Reg) (rot : BitVec 4) (imm : BitVec 8) (s : State) : Result :=
  dataImmediate .mov c setFlags 0 rd rot imm s

/-- MOV, register shifted by immediate (41 R163). -/
def execMovShImm (c : Cond) (setFlags : Bool) (rd : Reg) (n : BitVec 5) (sh : Shift) (rm : Reg) (s : State) : Result :=
  dataShiftImmediate .mov c setFlags 0 rd n sh rm s

/-- MOV, register shifted by register (41 R163). -/
def execMovShReg (c : Cond) (setFlags : Bool) (rd : Reg) (rs : Reg) (sh : Shift) (rm : Reg) (s : State) : Result :=
  dataShiftRegister .mov c setFlags 0 rd rs sh rm s

/-- BIC, immediate (41 R164). -/
def execBicImm (c : Cond) (setFlags : Bool) (rn rd : Reg) (rot : BitVec 4) (imm : BitVec 8) (s : State) : Result :=
  dataImmediate .bic c setFlags rn rd rot imm s

/-- BIC, register shifted by immediate (41 R164). -/
def execBicShImm (c : Cond) (setFlags : Bool) (rn rd : Reg) (n : BitVec 5) (sh : Shift) (rm : Reg) (s : State) : Result :=
  dataShiftImmediate .bic c setFlags rn rd n sh rm s

/-- BIC, register shifted by register (41 R164). -/
def execBicShReg (c : Cond) (setFlags : Bool) (rn rd : Reg) (rs : Reg) (sh : Shift) (rm : Reg) (s : State) : Result :=
  dataShiftRegister .bic c setFlags rn rd rs sh rm s

/-- MVN, immediate (41 R165). -/
def execMvnImm (c : Cond) (setFlags : Bool) (rd : Reg) (rot : BitVec 4) (imm : BitVec 8) (s : State) : Result :=
  dataImmediate .mvn c setFlags 0 rd rot imm s

/-- MVN, register shifted by immediate (41 R165). -/
def execMvnShImm (c : Cond) (setFlags : Bool) (rd : Reg) (n : BitVec 5) (sh : Shift) (rm : Reg) (s : State) : Result :=
  dataShiftImmediate .mvn c setFlags 0 rd n sh rm s

/-- MVN, register shifted by register (41 R165). -/
def execMvnShReg (c : Cond) (setFlags : Bool) (rd : Reg) (rs : Reg) (sh : Shift) (rm : Reg) (s : State) : Result :=
  dataShiftRegister .mvn c setFlags 0 rd rs sh rm s

end Sys2Proof.Machine
end

