-- ==== Sys2Proof/Machine/ArmMultiply.lean ====
section
/-! DEFINITION. ARM multiplies (43_arm_multiply.md). -/

namespace Sys2Proof.Machine

/-- Rd <- a 32-bit product; with S = 1 N and Z of it, C free, V kept (R191, R192; log 12). -/
def writeProduct (setFlags : Bool) (rd : Reg) (value : Word) (s : State) : State :=
  let t := s.writeReg rd value
  if setFlags then ((t.withCpsr (s.cpsr.withProduct value (Config.mulCarry s.draws))).drawn).advance
  else t.advance

/-- RdHi : RdLo <- a 64-bit product; with S = 1 N and Z of it, C and V free (R193; log 12). -/
def writeLongProduct (setFlags : Bool) (rdHi rdLo : Reg) (value : BitVec 64) (s : State) : State :=
  let t := (s.writeReg rdLo (value.extractLsb' 0 32)).writeReg rdHi (value.extractLsb' 32 32)
  if setFlags then
    ((t.withCpsr (s.cpsr.withLongProduct value (Config.longCarry s.draws) (Config.longOverflow s.draws))).drawn).advance
  else t.advance

/-- RdHi : RdLo before the instruction. -/
def State.longValue (s : State) (rdHi rdLo : Reg) : BitVec 64 := s.readReg rdHi ++ s.readReg rdLo

/-- What the long multiplies refuse (R190, R193): r15, and RdHi, RdLo and Rm not all different. -/
def longRefusal (rdHi rdLo rs rm : Reg) : Option Refusal :=
  (pcRefusal [rdHi, rdLo, rs, rm]).orElse fun _ =>
    (sameRefusal rdHi rdLo).orElse fun _ => (sameRefusal rdHi rm).orElse fun _ => sameRefusal rdLo rm

/-- MUL (R191). -/
def execMul (c : Cond) (setFlags : Bool) (rd rs rm : Reg) (s : State) : Result :=
  conditional c s (guarded (pcRefusal [rd, rs, rm]) (guarded (sameRefusal rd rm)
    (.next (writeProduct setFlags rd (s.readReg rm * s.readReg rs) s))))

/-- MLA (R192). -/
def execMla (c : Cond) (setFlags : Bool) (rd rn rs rm : Reg) (s : State) : Result :=
  conditional c s (guarded (pcRefusal [rd, rn, rs, rm]) (guarded (sameRefusal rd rm)
    (.next (writeProduct setFlags rd (s.readReg rm * s.readReg rs + s.readReg rn) s))))

/-- UMULL (R194). -/
def execUmull (c : Cond) (setFlags : Bool) (rdHi rdLo rs rm : Reg) (s : State) : Result :=
  conditional c s (guarded (longRefusal rdHi rdLo rs rm) (.next (writeLongProduct setFlags rdHi rdLo
    (BitVec.ofNat 64 ((s.readReg rm).toNat * (s.readReg rs).toNat)) s)))

/-- UMLAL (R195). -/
def execUmlal (c : Cond) (setFlags : Bool) (rdHi rdLo rs rm : Reg) (s : State) : Result :=
  conditional c s (guarded (longRefusal rdHi rdLo rs rm) (.next (writeLongProduct setFlags rdHi rdLo
    (BitVec.ofNat 64 ((s.readReg rm).toNat * (s.readReg rs).toNat + (s.longValue rdHi rdLo).toNat)) s)))

/-- SMULL (R196). -/
def execSmull (c : Cond) (setFlags : Bool) (rdHi rdLo rs rm : Reg) (s : State) : Result :=
  conditional c s (guarded (longRefusal rdHi rdLo rs rm) (.next (writeLongProduct setFlags rdHi rdLo
    (BitVec.ofInt 64 ((s.readReg rm).toInt * (s.readReg rs).toInt)) s)))

/-- SMLAL (R197). -/
def execSmlal (c : Cond) (setFlags : Bool) (rdHi rdLo rs rm : Reg) (s : State) : Result :=
  conditional c s (guarded (longRefusal rdHi rdLo rs rm) (.next (writeLongProduct setFlags rdHi rdLo
    (BitVec.ofInt 64 ((s.readReg rm).toInt * (s.readReg rs).toInt + (s.longValue rdHi rdLo).toInt)) s)))

end Sys2Proof.Machine
end

