-- ==== Sys2Proof/Machine/ArmStatus.lean ====
section
/-! DEFINITION. ARM status register transfer (42_arm_psr_transfer.md). -/

namespace Sys2Proof.Machine

/-- A status register as MRS reads it: bits 27:8 are a free value (10_state.md R46; log 13). -/
def Psr.asRead (p : Psr) (n : Nat) : Word :=
  Psr.toWord { p with reserved := Config.reservedRead n p.reserved }

/-- A status register with the fields that `mask` (f s x c) selects taken from a word (R182): of the f
field N, Z, C, V, of the c field I, F, T, M; bits 27:8 are not written (R46). -/
def Psr.masked (p : Psr) (mask : BitVec 4) (w : Word) : Psr :=
  let flags := if mask.getLsbD 3 then p.withFlagField w else p
  if mask.getLsbD 0 then flags.withControlField w else flags

/-- Rd <- a status register (R181). -/
def moveFromStatus (p : Psr) (rd : Reg) (s : State) : State :=
  ((s.writeReg rd (p.asRead s.draws)).drawn).advance

/-- MRS (R181). -/
def execMrs (c : Cond) (r : Bool) (rd : Reg) (s : State) : Result :=
  conditional c s (guarded (pcRefusal [rd])
    (if r then
      match s.spsrOf s.mode with
      | some p => .next (moveFromStatus p rd s)
      | none => .refused .noSpsr
    else .next (moveFromStatus s.cpsr rd s)))

/-- SPSR of the current mode <- the fields of `mask` of a word (R182). -/
def moveToSpsr (mask : BitVec 4) (w : Word) (s : State) : Result :=
  match s.spsrOf s.mode with
  | some p => .next (s.setSpsrOf s.mode (p.masked mask w)).advance
  | none => .refused .noSpsr

/-- CPSR <- the fields of `mask` of a word (R182): User mode writes the f field alone (R184); T is not to
change (R185); an illegal mode is the unrecoverable mode (R186). Of an operand that does both the spec gives no
order: T is looked at first, so that it is refused and is no fault. DESIGN CHOICE: log 27. -/
def moveToCpsr (mask : BitVec 4) (w : Word) (s : State) : Result :=
  if s.mode = .usr then .next (s.withCpsr (s.cpsr.masked (mask &&& 0b1000#4) w)).advance
  else if mask.getLsbD 0 && w.getLsbD 5 != s.cpsr.t then .refused .forcesT
  else if mask.getLsbD 0 && modeOfBits (w.extractLsb' 0 5) == none then .fault .illegalMode
  else .next (s.withCpsr (s.cpsr.masked mask w)).advance

/-- MSR, register operand (R182). -/
def execMsrReg (c : Cond) (r : Bool) (mask : BitVec 4) (rm : Reg) (s : State) : Result :=
  conditional c s (guarded (pcRefusal [rm])
    (if r then moveToSpsr mask (s.readReg rm) s else moveToCpsr mask (s.readReg rm) s))

/-- MSR, immediate operand (R182). -/
def execMsrImm (c : Cond) (r : Bool) (mask rot : BitVec 4) (imm : BitVec 8) (s : State) : Result :=
  conditional c s
    (if r then moveToSpsr mask (immediateOperand rot imm).value s
     else moveToCpsr mask (immediateOperand rot imm).value s)

end Sys2Proof.Machine
end

