-- ==== Sys2Proof/Machine/ArmSystem.lean ====
section
/-! DEFINITION. ARM branches (40_arm_branch.md), swaps, software interrupt, coprocessor and undefined
instructions (46_arm_swap_swi_coproc.md). -/

namespace Sys2Proof.Machine

/-! ## Branches -/

/-- The target of B and BL (40 R131, R132). -/
def State.branchTarget (s : State) (off : BitVec 24) : Word := s.cur + 8 + (off.signExtend 32 <<< 2)

/-- B (40 R131). -/
def execB (c : Cond) (off : BitVec 24) (s : State) : Result :=
  conditional c s (.next (s.branchTo (s.branchTarget off)))

/-- BL (40 R132). -/
def execBl (c : Cond) (off : BitVec 24) (s : State) : Result :=
  conditional c s (.next ((s.writeReg 14 (s.cur + 4)).branchTo (s.branchTarget off)))

/-- BX (40 R134). -/
def execBx (c : Cond) (rm : Reg) (s : State) : Result :=
  conditional c s (exchangeTo (s.readReg rm) s)

/-! ## Swaps -/

/-- What the swaps refuse (46 R246). -/
def swapRefusal (rn rd rm : Reg) : Option Refusal :=
  (pcRefusal [rn, rd, rm]).orElse fun _ => (sameRefusal rn rm).orElse fun _ => sameRefusal rn rd

/-- A swap (46 R246): the read, then the write, then Rd. -/
def swap (l : LoadKind) (k : StoreKind) (rn rd rm : Reg) (s : State) : Result :=
  let a := s.readReg rn
  match s.access .read s.privilege (busAddress l.size a) l.size with
  | .unmapped => .fault .unmapped
  | .aborted => raised .dataAbort takeDataAbort s
  | .granted =>
    match s.access .write s.privilege (busAddress k.size a) k.size with
    | .unmapped => .fault .unmapped
    | .aborted => raised .dataAbort takeDataAbort s
    | .granted => .next ((s.stored k a (s.readReg rm)).writeReg rd (s.loaded l a)).advance

/-- SWP (46 R246). -/
def execSwp (c : Cond) (rn rd rm : Reg) (s : State) : Result :=
  conditional c s (guarded (swapRefusal rn rd rm) (swap .word .word rn rd rm s))

/-- SWPB (46 R246). -/
def execSwpb (c : Cond) (rn rd rm : Reg) (s : State) : Result :=
  conditional c s (guarded (swapRefusal rn rd rm) (swap .byte .byte rn rd rm s))

/-! ## Software interrupt and the undefined instruction -/

/-- SWI (46 R250); the comment field is ignored. -/
def execSwi (c : Cond) (_comment : BitVec 24) (s : State) : Result :=
  conditional c s (raised .swi takeSwi s)

/-- The architecturally undefined instruction (46 R258). -/
def execUndefined (c : Cond) (_hi : BitVec 20) (_lo : BitVec 4) (s : State) : Result :=
  conditional c s (raised .undefined takeUndefined s)

/-! ## Coprocessor instructions -/

/-- A coprocessor instruction offered to coprocessor `cp` (46 R251, R252): 14 is refused, one that is absent
raises Undefined Instruction, one that makes the core wait leaves the machine as it is and the instruction to
be executed again (R259: a wait is no instruction executed, log 10), one that accepts supplies its words to
`accept`. `forbidden` is what the rule of the instruction calls UNPREDICTABLE. -/
def offered (c : Cond) (cp : BitVec 4) (forbidden : Option Refusal)
    (accept : Word → List Word → State → Result) (s : State) : Result :=
  conditional c s
    (if cp = 14 then .refused .debugCoproc
     else if !s.plat.coprocs.contains cp then raised .undefined takeUndefined s
     else guarded forbidden
      (match s.replies with
       | [] => .next s
       | .busy :: rest => .next { s with replies := rest }
       | .accept first more :: rest => accept first more { s with replies := rest }))

/-- Words sent to a coprocessor. -/
def State.sending (s : State) (cp : BitVec 4) (ws : List Word) : State :=
  { s with sent := s.sent ++ ws.map (fun w => (cp, w)) }

/-- CDP (46 R253): the core changes nothing of its own. -/
def execCdp (c : Cond) (_op1 : BitVec 4) (_crn _crd cp : Reg) (_op2 : BitVec 3) (_crm : Reg) (s : State) : Result :=
  offered c cp none (fun _ _ t => .next t.advance) s

/-- MCR (46 R256): for Rd = 15 the word sent is a free value (log 28). -/
def execMcr (c : Cond) (_op1 : BitVec 3) (_crn rd cp : Reg) (_op2 : BitVec 3) (_crm : Reg) (s : State) : Result :=
  offered c cp none
    (fun _ _ t =>
      if rd = 15 then .next (t.drawn.sending cp [Config.sentPc t.draws]).advance
      else .next (t.sending cp [t.readReg rd]).advance) s

/-- MRC (46 R257): Rd = 15 writes the flags from bits 31:28. -/
def execMrc (c : Cond) (_op1 : BitVec 3) (_crn rd cp : Reg) (_op2 : BitVec 3) (_crm : Reg) (s : State) : Result :=
  offered c cp none
    (fun d _ t =>
      if rd = 15 then .next (t.withCpsr (t.cpsr.withFlagField d)).advance
      else .next (t.writeReg rd d).advance) s

/-- What LDC and STC refuse (46 R254). -/
def coprocTransferRefusal (p u w : Bool) (rn : Reg) : Option Refusal :=
  if w && rn == 15 then some .pcOperand
  else if !p && !w && !u then some .unindexedDown
  else none

/-- LDC (46 R254): as many words as the coprocessor asks for, read in ascending order and passed to it.
After an abort: log 23. -/
def execLdc (c : Cond) (p u _n w : Bool) (rn _crd cp : Reg) (off : BitVec 8) (s : State) : Result :=
  offered c cp (coprocTransferRefusal p u w rn)
    (fun _ more t =>
      let a := coprocAddressOf p u w (t.readReg rn) off
      let read := readWords t.privilege t a.address (more.length + 1)
      let based := (t.sending cp read.1).writtenBack rn a.writeBack
      match read.2 with
      | .unmapped => .fault .unmapped
      | .aborted => raised .dataAbort takeDataAbort based
      | .granted => .next based.advance) s

/-- STC (46 R255): the words the coprocessor supplies, written in ascending order. After an abort: log 23. -/
def execStc (c : Cond) (p u _n w : Bool) (rn _crd cp : Reg) (off : BitVec 8) (s : State) : Result :=
  offered c cp (coprocTransferRefusal p u w rn)
    (fun first more t =>
      let a := coprocAddressOf p u w (t.readReg rn) off
      storeBlock rn a.address (first :: more) a.writeBack t) s

end Sys2Proof.Machine
end

