-- ==== Sys2Proof/Machine/ArmTransfer.lean ====
section
/-! DEFINITION. ARM single-register loads and stores (44_arm_load_store.md). -/

namespace Sys2Proof.Machine

/-- An ARM single load in one of the addressing modes of R202. -/
def singleLoad (k : LoadKind) (noPc : Bool) (priv : Privilege) (c : Cond) (p u w : Bool) (rn rd : Reg) (off : Word)
    (rm : Option Reg) (s : State) : Result :=
  conditional c s (guarded (transferRefusal (!p || w) noPc rn rd rm)
    (load k priv rn rd (addressOf p u w (s.readReg rn) off) s))

/-- An ARM single store in one of the addressing modes of R202. -/
def singleStore (k : StoreKind) (noPc : Bool) (priv : Privilege) (c : Cond) (p u w : Bool) (rn rd : Reg) (off : Word)
    (rm : Option Reg) (s : State) : Result :=
  conditional c s (guarded (transferRefusal (!p || w) noPc rn rd rm)
    (store k priv rn (s.storedReg rd) (addressOf p u w (s.readReg rn) off) s))

/-- The immediate offset of R201. -/
def offsetImmediate (off : BitVec 12) : Word := off.setWidth 32

/-- The shifted register offset of R201. -/
def State.offsetShifted (s : State) (n : BitVec 5) (sh : Shift) (rm : Reg) : Word :=
  (shiftByImmediate sh (s.readReg rm) n s.cpsr.c).value

/-- P = 0 with W = 1 in the halfword format (R214). -/
def postIndexRefusal (p w : Bool) : Option Refusal := if !p && w then some .postIndexW else none

/-- A halfword or signed load (R214): no form has Rd = 15. -/
def halfFormatLoad (k : LoadKind) (c : Cond) (p u w : Bool) (rn rd : Reg) (off : Word) (rm : Option Reg) (s : State) :
    Result :=
  conditional c s (guarded (postIndexRefusal p w) (guarded (transferRefusal (!p || w) true rn rd rm)
    (load k s.privilege rn rd (addressOf p u w (s.readReg rn) off) s)))

/-- A halfword store (R214). -/
def halfFormatStore (c : Cond) (p u w : Bool) (rn rd : Reg) (off : Word) (rm : Option Reg) (s : State) : Result :=
  conditional c s (guarded (postIndexRefusal p w) (guarded (transferRefusal (!p || w) true rn rd rm)
    (store .half s.privilege rn (s.storedReg rd) (addressOf p u w (s.readReg rn) off) s)))

/-- STR, immediate offset, offset or pre-indexed (R206). -/
def execStrImm (c : Cond) (u w : Bool) (rn rd : Reg) (off : BitVec 12) (s : State) : Result :=
  singleStore .word false s.privilege c true u w rn rd (offsetImmediate off) none s

/-- STR, immediate offset, post-indexed (R206). -/
def execStrImmPost (c : Cond) (u : Bool) (rn rd : Reg) (off : BitVec 12) (s : State) : Result :=
  singleStore .word false s.privilege c false u false rn rd (offsetImmediate off) none s

/-- STRT, immediate offset (R211): the access is signalled as a User access. -/
def execStrtImm (c : Cond) (u : Bool) (rn rd : Reg) (off : BitVec 12) (s : State) : Result :=
  singleStore .word true .user c false u true rn rd (offsetImmediate off) none s

/-- STR, shifted register offset, offset or pre-indexed (R206). -/
def execStrReg (c : Cond) (u w : Bool) (rn rd : Reg) (n : BitVec 5) (sh : Shift) (rm : Reg) (s : State) : Result :=
  singleStore .word false s.privilege c true u w rn rd (s.offsetShifted n sh rm) (some rm) s

/-- STR, shifted register offset, post-indexed (R206). -/
def execStrRegPost (c : Cond) (u : Bool) (rn rd : Reg) (n : BitVec 5) (sh : Shift) (rm : Reg) (s : State) : Result :=
  singleStore .word false s.privilege c false u false rn rd (s.offsetShifted n sh rm) (some rm) s

/-- STRT, shifted register offset (R211): the access is signalled as a User access. -/
def execStrtReg (c : Cond) (u : Bool) (rn rd : Reg) (n : BitVec 5) (sh : Shift) (rm : Reg) (s : State) : Result :=
  singleStore .word true .user c false u true rn rd (s.offsetShifted n sh rm) (some rm) s

/-- LDR, immediate offset, offset or pre-indexed (R205). -/
def execLdrImm (c : Cond) (u w : Bool) (rn rd : Reg) (off : BitVec 12) (s : State) : Result :=
  singleLoad .word false s.privilege c true u w rn rd (offsetImmediate off) none s

/-- LDR, immediate offset, post-indexed (R205). -/
def execLdrImmPost (c : Cond) (u : Bool) (rn rd : Reg) (off : BitVec 12) (s : State) : Result :=
  singleLoad .word false s.privilege c false u false rn rd (offsetImmediate off) none s

/-- LDRT, immediate offset (R210): the access is signalled as a User access. -/
def execLdrtImm (c : Cond) (u : Bool) (rn rd : Reg) (off : BitVec 12) (s : State) : Result :=
  singleLoad .word true .user c false u true rn rd (offsetImmediate off) none s

/-- LDR, shifted register offset, offset or pre-indexed (R205). -/
def execLdrReg (c : Cond) (u w : Bool) (rn rd : Reg) (n : BitVec 5) (sh : Shift) (rm : Reg) (s : State) : Result :=
  singleLoad .word false s.privilege c true u w rn rd (s.offsetShifted n sh rm) (some rm) s

/-- LDR, shifted register offset, post-indexed (R205). -/
def execLdrRegPost (c : Cond) (u : Bool) (rn rd : Reg) (n : BitVec 5) (sh : Shift) (rm : Reg) (s : State) : Result :=
  singleLoad .word false s.privilege c false u false rn rd (s.offsetShifted n sh rm) (some rm) s

/-- LDRT, shifted register offset (R210): the access is signalled as a User access. -/
def execLdrtReg (c : Cond) (u : Bool) (rn rd : Reg) (n : BitVec 5) (sh : Shift) (rm : Reg) (s : State) : Result :=
  singleLoad .word true .user c false u true rn rd (s.offsetShifted n sh rm) (some rm) s

/-- STRB, immediate offset, offset or pre-indexed (R209). -/
def execStrbImm (c : Cond) (u w : Bool) (rn rd : Reg) (off : BitVec 12) (s : State) : Result :=
  singleStore .byte true s.privilege c true u w rn rd (offsetImmediate off) none s

/-- STRB, immediate offset, post-indexed (R209). -/
def execStrbImmPost (c : Cond) (u : Bool) (rn rd : Reg) (off : BitVec 12) (s : State) : Result :=
  singleStore .byte true s.privilege c false u false rn rd (offsetImmediate off) none s

/-- STRBT, immediate offset (R213): the access is signalled as a User access. -/
def execStrbtImm (c : Cond) (u : Bool) (rn rd : Reg) (off : BitVec 12) (s : State) : Result :=
  singleStore .byte true .user c false u true rn rd (offsetImmediate off) none s

/-- STRB, shifted register offset, offset or pre-indexed (R209). -/
def execStrbReg (c : Cond) (u w : Bool) (rn rd : Reg) (n : BitVec 5) (sh : Shift) (rm : Reg) (s : State) : Result :=
  singleStore .byte true s.privilege c true u w rn rd (s.offsetShifted n sh rm) (some rm) s

/-- STRB, shifted register offset, post-indexed (R209). -/
def execStrbRegPost (c : Cond) (u : Bool) (rn rd : Reg) (n : BitVec 5) (sh : Shift) (rm : Reg) (s : State) : Result :=
  singleStore .byte true s.privilege c false u false rn rd (s.offsetShifted n sh rm) (some rm) s

/-- STRBT, shifted register offset (R213): the access is signalled as a User access. -/
def execStrbtReg (c : Cond) (u : Bool) (rn rd : Reg) (n : BitVec 5) (sh : Shift) (rm : Reg) (s : State) : Result :=
  singleStore .byte true .user c false u true rn rd (s.offsetShifted n sh rm) (some rm) s

/-- LDRB, immediate offset, offset or pre-indexed (R208). -/
def execLdrbImm (c : Cond) (u w : Bool) (rn rd : Reg) (off : BitVec 12) (s : State) : Result :=
  singleLoad .byte true s.privilege c true u w rn rd (offsetImmediate off) none s

/-- LDRB, immediate offset, post-indexed (R208). -/
def execLdrbImmPost (c : Cond) (u : Bool) (rn rd : Reg) (off : BitVec 12) (s : State) : Result :=
  singleLoad .byte true s.privilege c false u false rn rd (offsetImmediate off) none s

/-- LDRBT, immediate offset (R212): the access is signalled as a User access. -/
def execLdrbtImm (c : Cond) (u : Bool) (rn rd : Reg) (off : BitVec 12) (s : State) : Result :=
  singleLoad .byte true .user c false u true rn rd (offsetImmediate off) none s

/-- LDRB, shifted register offset, offset or pre-indexed (R208). -/
def execLdrbReg (c : Cond) (u w : Bool) (rn rd : Reg) (n : BitVec 5) (sh : Shift) (rm : Reg) (s : State) : Result :=
  singleLoad .byte true s.privilege c true u w rn rd (s.offsetShifted n sh rm) (some rm) s

/-- LDRB, shifted register offset, post-indexed (R208). -/
def execLdrbRegPost (c : Cond) (u : Bool) (rn rd : Reg) (n : BitVec 5) (sh : Shift) (rm : Reg) (s : State) : Result :=
  singleLoad .byte true s.privilege c false u false rn rd (s.offsetShifted n sh rm) (some rm) s

/-- LDRBT, shifted register offset (R212): the access is signalled as a User access. -/
def execLdrbtReg (c : Cond) (u : Bool) (rn rd : Reg) (n : BitVec 5) (sh : Shift) (rm : Reg) (s : State) : Result :=
  singleLoad .byte true .user c false u true rn rd (s.offsetShifted n sh rm) (some rm) s

/-- STRH, register offset (R216). -/
def execStrhReg (c : Cond) (p u w : Bool) (rn rd rm : Reg) (s : State) : Result :=
  halfFormatStore c p u w rn rd (s.readReg rm) (some rm) s

/-- STRH, immediate offset (R216). -/
def execStrhImm (c : Cond) (p u w : Bool) (rn rd : Reg) (off : BitVec 8) (s : State) : Result :=
  halfFormatStore c p u w rn rd (off.setWidth 32) none s

/-- LDRH, register offset (R215). -/
def execLdrhReg (c : Cond) (p u w : Bool) (rn rd rm : Reg) (s : State) : Result :=
  halfFormatLoad .half c p u w rn rd (s.readReg rm) (some rm) s

/-- LDRH, immediate offset (R215). -/
def execLdrhImm (c : Cond) (p u w : Bool) (rn rd : Reg) (off : BitVec 8) (s : State) : Result :=
  halfFormatLoad .half c p u w rn rd (off.setWidth 32) none s

/-- LDRSB, register offset (R217). -/
def execLdrsbReg (c : Cond) (p u w : Bool) (rn rd rm : Reg) (s : State) : Result :=
  halfFormatLoad .signedByte c p u w rn rd (s.readReg rm) (some rm) s

/-- LDRSB, immediate offset (R217). -/
def execLdrsbImm (c : Cond) (p u w : Bool) (rn rd : Reg) (off : BitVec 8) (s : State) : Result :=
  halfFormatLoad .signedByte c p u w rn rd (off.setWidth 32) none s

/-- LDRSH, register offset (R218). -/
def execLdrshReg (c : Cond) (p u w : Bool) (rn rd rm : Reg) (s : State) : Result :=
  halfFormatLoad .signedHalf c p u w rn rd (s.readReg rm) (some rm) s

/-- LDRSH, immediate offset (R218). -/
def execLdrshImm (c : Cond) (p u w : Bool) (rn rd : Reg) (off : BitVec 8) (s : State) : Result :=
  halfFormatLoad .signedHalf c p u w rn rd (off.setWidth 32) none s

end Sys2Proof.Machine
end

