-- ==== Sys2Proof/Machine/ThumbAlu.lean ====
section
/-! DEFINITION. Thumb arithmetic, logical, shift and move instructions (47_thumb_alu.md). -/

namespace Sys2Proof.Machine

/-- A Thumb instruction of formats 1 to 4, as the ARM data-processing instruction with S = 1 that it
corresponds to (R265). -/
def thumbData (op : AluOp) (rn rd : LowReg) (o : Shifted) (s : State) : Result :=
  dataProcess op true (lowReg rn) (lowReg rd) o s

/-- The value of a low register, as an operand. -/
def State.lowOperand (s : State) (r : LowReg) : Shifted := ⟨s.readReg (lowReg r), none⟩

/-- An immediate, as an operand. -/
def zeroExtended {n : Nat} (imm : BitVec n) : Shifted := ⟨imm.setWidth 32, none⟩

/-- Format 1: Rd <- Rs shifted by an immediate (R266 to R268). -/
def thumbShiftImmediate (sh : Shift) (n : BitVec 5) (rs rd : LowReg) (s : State) : Result :=
  thumbData .mov 0 rd (shiftByImmediate sh (s.readReg (lowReg rs)) n s.cpsr.c) s

/-- Format 4 shifts: Rd <- Rd shifted by Rs (R282 to R284, R287). -/
def thumbShiftRegister (sh : Shift) (rs rd : LowReg) (s : State) : Result :=
  thumbData .mov 0 rd (shiftByRegister sh (s.readReg (lowReg rd)) (s.readReg (lowReg rs))) s

/-- The write of register `d` by format 5: the pc with bit 0 as 0, in Thumb state still (R297, R299). -/
def thumbWriteHigh (d : Reg) (v : Word) (s : State) : State :=
  if d = 15 then s.branchTo (halfAligned v) else (s.writeReg d v).advance

/-- LSL Rd, Rs, #n (R266). -/
def execTLslImm (n : BitVec 5) (rs rd : LowReg) (s : State) : Result :=
  thumbShiftImmediate .lsl n rs rd s

/-- LSR Rd, Rs, #n (R267). -/
def execTLsrImm (n : BitVec 5) (rs rd : LowReg) (s : State) : Result :=
  thumbShiftImmediate .lsr n rs rd s

/-- ASR Rd, Rs, #n (R268). -/
def execTAsrImm (n : BitVec 5) (rs rd : LowReg) (s : State) : Result :=
  thumbShiftImmediate .asr n rs rd s

/-- ADD Rd, Rs, Rn (R270). -/
def execTAddReg (rn rs rd : LowReg) (s : State) : Result :=
  thumbData .add rs rd (s.lowOperand rn) s

/-- SUB Rd, Rs, Rn (R271). -/
def execTSubReg (rn rs rd : LowReg) (s : State) : Result :=
  thumbData .sub rs rd (s.lowOperand rn) s

/-- ADD Rd, Rs, #imm3 (R272). -/
def execTAddImm3 (imm : BitVec 3) (rs rd : LowReg) (s : State) : Result :=
  thumbData .add rs rd (zeroExtended imm) s

/-- SUB Rd, Rs, #imm3 (R273). -/
def execTSubImm3 (imm : BitVec 3) (rs rd : LowReg) (s : State) : Result :=
  thumbData .sub rs rd (zeroExtended imm) s

/-- MOV Rd, #imm (R275). -/
def execTMovImm8 (rd : LowReg) (imm : BitVec 8) (s : State) : Result :=
  thumbData .mov rd rd (zeroExtended imm) s

/-- CMP Rd, #imm (R276). -/
def execTCmpImm8 (rd : LowReg) (imm : BitVec 8) (s : State) : Result :=
  thumbData .cmp rd rd (zeroExtended imm) s

/-- ADD Rd, #imm (R277). -/
def execTAddImm8 (rd : LowReg) (imm : BitVec 8) (s : State) : Result :=
  thumbData .add rd rd (zeroExtended imm) s

/-- SUB Rd, #imm (R278). -/
def execTSubImm8 (rd : LowReg) (imm : BitVec 8) (s : State) : Result :=
  thumbData .sub rd rd (zeroExtended imm) s

/-- AND Rd, Rs (R280). -/
def execTAnd (rs rd : LowReg) (s : State) : Result :=
  thumbData .and rd rd (s.lowOperand rs) s

/-- EOR Rd, Rs (R281). -/
def execTEor (rs rd : LowReg) (s : State) : Result :=
  thumbData .eor rd rd (s.lowOperand rs) s

/-- LSL Rd, Rs (R282). -/
def execTLslReg (rs rd : LowReg) (s : State) : Result :=
  thumbShiftRegister .lsl rs rd s

/-- LSR Rd, Rs (R283). -/
def execTLsrReg (rs rd : LowReg) (s : State) : Result :=
  thumbShiftRegister .lsr rs rd s

/-- ASR Rd, Rs (R284). -/
def execTAsrReg (rs rd : LowReg) (s : State) : Result :=
  thumbShiftRegister .asr rs rd s

/-- ADC Rd, Rs (R285). -/
def execTAdc (rs rd : LowReg) (s : State) : Result :=
  thumbData .adc rd rd (s.lowOperand rs) s

/-- SBC Rd, Rs (R286). -/
def execTSbc (rs rd : LowReg) (s : State) : Result :=
  thumbData .sbc rd rd (s.lowOperand rs) s

/-- ROR Rd, Rs (R287). -/
def execTRorReg (rs rd : LowReg) (s : State) : Result :=
  thumbShiftRegister .ror rs rd s

/-- TST Rd, Rs (R288). -/
def execTTst (rs rd : LowReg) (s : State) : Result :=
  thumbData .tst rd rd (s.lowOperand rs) s

/-- NEG Rd, Rs: 0 - Rs (R289). -/
def execTNeg (rs rd : LowReg) (s : State) : Result :=
  thumbData .rsb rs rd ⟨0, none⟩ s

/-- CMP Rd, Rs (R290). -/
def execTCmp (rs rd : LowReg) (s : State) : Result :=
  thumbData .cmp rd rd (s.lowOperand rs) s

/-- CMN Rd, Rs (R291). -/
def execTCmn (rs rd : LowReg) (s : State) : Result :=
  thumbData .cmn rd rd (s.lowOperand rs) s

/-- ORR Rd, Rs (R292). -/
def execTOrr (rs rd : LowReg) (s : State) : Result :=
  thumbData .orr rd rd (s.lowOperand rs) s

/-- MUL Rd, Rs: C is left free (R293). -/
def execTMul (rs rd : LowReg) (s : State) : Result :=
  guarded (sameRefusal (lowReg rd) (lowReg rs))
    (.next (writeProduct true (lowReg rd) (s.readReg (lowReg rd) * s.readReg (lowReg rs)) s))

/-- BIC Rd, Rs (R294). -/
def execTBic (rs rd : LowReg) (s : State) : Result :=
  thumbData .bic rd rd (s.lowOperand rs) s

/-- MVN Rd, Rs (R295). -/
def execTMvn (rs rd : LowReg) (s : State) : Result :=
  thumbData .mvn rd rd (s.lowOperand rs) s

/-- ADD on high registers; no flag changes (R297). -/
def execTAddHi (d src : Reg) (s : State) : Result :=
  guarded (bothLowRefusal d src) (.next (thumbWriteHigh d (s.readReg d + s.readReg src) s))

/-- CMP on high registers (R298). -/
def execTCmpHi (d src : Reg) (s : State) : Result :=
  guarded (bothLowRefusal d src) (guarded (pcRefusal [d])
    (dataProcess .cmp true d 0 ⟨s.readReg src, none⟩ s))

/-- MOV on high registers; no flag changes (R299). -/
def execTMovHi (d src : Reg) (s : State) : Result :=
  guarded (bothLowRefusal d src) (.next (thumbWriteHigh d (s.readReg src) s))

/-- An 8-bit offset scaled by 4 (30 R116). -/
def wordOffset8 (off : BitVec 8) : Word := off.setWidth 32 <<< 2

/-- A 7-bit offset scaled by 4 (30 R116). -/
def wordOffset7 (off : BitVec 7) : Word := off.setWidth 32 <<< 2

/-- ADD Rd, pc, #imm (R302). -/
def execTAddPc (rd : LowReg) (off : BitVec 8) (s : State) : Result :=
  .next (s.writeReg (lowReg rd) (wordAligned s.pcValue + wordOffset8 off)).advance

/-- ADD Rd, sp, #imm (R303). -/
def execTAddSp (rd : LowReg) (off : BitVec 8) (s : State) : Result :=
  .next (s.writeReg (lowReg rd) (s.readReg 13 + wordOffset8 off)).advance

/-- ADD sp, #imm (R305). -/
def execTSpUp (off : BitVec 7) (s : State) : Result :=
  .next (s.writeReg 13 (s.readReg 13 + wordOffset7 off)).advance

/-- ADD sp, #-imm (R305). -/
def execTSpDown (off : BitVec 7) (s : State) : Result :=
  .next (s.writeReg 13 (s.readReg 13 - wordOffset7 off)).advance

end Sys2Proof.Machine
end

