-- ==== Sys2Proof/Machine/ThumbBranch.lean ====
section
/-! DEFINITION. Thumb branches, BX, software interrupt and undefined instructions (49_thumb_branch.md). -/

namespace Sys2Proof.Machine

/-- Format 16 (R341). -/
def thumbBranchIf (c : Cond) (off : BitVec 8) (s : State) : Result :=
  if condHolds c s.cpsr then .next (s.branchTo (s.cur + 4 + (off.signExtend 32 <<< 1))) else .next s.advance

/-- BEQ label (R341). -/
def execTBeq (off : BitVec 8) (s : State) : Result :=
  thumbBranchIf .eq off s

/-- BNE label (R341). -/
def execTBne (off : BitVec 8) (s : State) : Result :=
  thumbBranchIf .ne off s

/-- BCS label (R341). -/
def execTBcs (off : BitVec 8) (s : State) : Result :=
  thumbBranchIf .cs off s

/-- BCC label (R341). -/
def execTBcc (off : BitVec 8) (s : State) : Result :=
  thumbBranchIf .cc off s

/-- BMI label (R341). -/
def execTBmi (off : BitVec 8) (s : State) : Result :=
  thumbBranchIf .mi off s

/-- BPL label (R341). -/
def execTBpl (off : BitVec 8) (s : State) : Result :=
  thumbBranchIf .pl off s

/-- BVS label (R341). -/
def execTBvs (off : BitVec 8) (s : State) : Result :=
  thumbBranchIf .vs off s

/-- BVC label (R341). -/
def execTBvc (off : BitVec 8) (s : State) : Result :=
  thumbBranchIf .vc off s

/-- BHI label (R341). -/
def execTBhi (off : BitVec 8) (s : State) : Result :=
  thumbBranchIf .hi off s

/-- BLS label (R341). -/
def execTBls (off : BitVec 8) (s : State) : Result :=
  thumbBranchIf .ls off s

/-- BGE label (R341). -/
def execTBge (off : BitVec 8) (s : State) : Result :=
  thumbBranchIf .ge off s

/-- BLT label (R341). -/
def execTBlt (off : BitVec 8) (s : State) : Result :=
  thumbBranchIf .lt off s

/-- BGT label (R341). -/
def execTBgt (off : BitVec 8) (s : State) : Result :=
  thumbBranchIf .gt off s

/-- BLE label (R341). -/
def execTBle (off : BitVec 8) (s : State) : Result :=
  thumbBranchIf .le off s

/-- 0xDE00 to 0xDEFF, undefined (R351). -/
def execTUndefined (_low : BitVec 8) (s : State) : Result :=
  raised .undefined takeUndefined s

/-- SWI; the comment field is ignored (R343). -/
def execTSwi (_comment : BitVec 8) (s : State) : Result :=
  raised .swi takeSwi s

/-- B label (R344). -/
def execTB (off : BitVec 11) (s : State) : Result :=
  .next (s.branchTo (s.cur + 4 + (off.signExtend 32 <<< 1)))

/-- BL, first half (R346). -/
def execTBlPrefix (off : BitVec 11) (s : State) : Result :=
  .next (s.writeReg 14 (s.cur + 4 + (off.signExtend 32 <<< 12))).advance

/-- BL, second half (R347). -/
def execTBlSuffix (off : BitVec 11) (s : State) : Result :=
  let t := s.readReg 14 + (off.setWidth 32 <<< 1)
  .next ((s.writeReg 14 ((s.cur + 2) ||| 1)).branchTo (halfAligned t))

/-- BX (R349). -/
def execTBx (src : Reg) (s : State) : Result :=
  exchangeTo (s.readReg src) s

/-- The undefined halfwords of 30 R118 items 2 and 3; log 20 (R351). -/
def execTUndefinedSpace (_h : Half) (s : State) : Result :=
  raised .undefined takeUndefined s

end Sys2Proof.Machine
end

