-- ==== Sys2Proof/Machine/ThumbTransfer.lean ====
section
/-! DEFINITION. Thumb loads and stores (48_thumb_load_store.md). -/

namespace Sys2Proof.Machine

/-- A Thumb load (R310): base plus offset, no write-back. -/
def thumbLoad (k : LoadKind) (rd : LowReg) (a : Word) (s : State) : Result :=
  load k s.privilege 0 (lowReg rd) ⟨a, none⟩ s

/-- A Thumb store (R310). -/
def thumbStore (k : StoreKind) (rd : LowReg) (a : Word) (s : State) : Result :=
  store k s.privilege 0 (s.readReg (lowReg rd)) ⟨a, none⟩ s

/-- The address of formats 7 and 8. -/
def State.addressReg (s : State) (ro rb : LowReg) : Word := s.readReg (lowReg rb) + s.readReg (lowReg ro)

/-- The address of formats 9 and 10; the offset is scaled by `2 ^ scale` (30 R116). -/
def State.addressImm (s : State) (scale : Nat) (off : BitVec 5) (rb : LowReg) : Word :=
  s.readReg (lowReg rb) + (off.setWidth 32 <<< scale)

/-- LDR Rd, [pc, #imm] (R311). -/
def execTLdrPc (rd : LowReg) (off : BitVec 8) (s : State) : Result :=
  thumbLoad .word rd (wordAligned s.pcValue + (off.setWidth 32 <<< 2)) s

/-- STR Rd, [Rb, Ro] (R312). -/
def execTStrReg (ro rb rd : LowReg) (s : State) : Result :=
  thumbStore .word rd (s.addressReg ro rb) s

/-- STRB Rd, [Rb, Ro] (R313). -/
def execTStrbReg (ro rb rd : LowReg) (s : State) : Result :=
  thumbStore .byte rd (s.addressReg ro rb) s

/-- LDR Rd, [Rb, Ro] (R314). -/
def execTLdrReg (ro rb rd : LowReg) (s : State) : Result :=
  thumbLoad .word rd (s.addressReg ro rb) s

/-- LDRB Rd, [Rb, Ro] (R315). -/
def execTLdrbReg (ro rb rd : LowReg) (s : State) : Result :=
  thumbLoad .byte rd (s.addressReg ro rb) s

/-- STRH Rd, [Rb, Ro] (R316). -/
def execTStrhReg (ro rb rd : LowReg) (s : State) : Result :=
  thumbStore .half rd (s.addressReg ro rb) s

/-- LDSB Rd, [Rb, Ro] (R317). -/
def execTLdsbReg (ro rb rd : LowReg) (s : State) : Result :=
  thumbLoad .signedByte rd (s.addressReg ro rb) s

/-- LDRH Rd, [Rb, Ro] (R318). -/
def execTLdrhReg (ro rb rd : LowReg) (s : State) : Result :=
  thumbLoad .half rd (s.addressReg ro rb) s

/-- LDSH Rd, [Rb, Ro] (R319). -/
def execTLdshReg (ro rb rd : LowReg) (s : State) : Result :=
  thumbLoad .signedHalf rd (s.addressReg ro rb) s

/-- STR Rd, [Rb, #imm] (R320). -/
def execTStrImm (off : BitVec 5) (rb rd : LowReg) (s : State) : Result :=
  thumbStore .word rd (s.addressImm 2 off rb) s

/-- LDR Rd, [Rb, #imm] (R321). -/
def execTLdrImm (off : BitVec 5) (rb rd : LowReg) (s : State) : Result :=
  thumbLoad .word rd (s.addressImm 2 off rb) s

/-- STRB Rd, [Rb, #imm] (R322). -/
def execTStrbImm (off : BitVec 5) (rb rd : LowReg) (s : State) : Result :=
  thumbStore .byte rd (s.addressImm 0 off rb) s

/-- LDRB Rd, [Rb, #imm] (R323). -/
def execTLdrbImm (off : BitVec 5) (rb rd : LowReg) (s : State) : Result :=
  thumbLoad .byte rd (s.addressImm 0 off rb) s

/-- STRH Rd, [Rb, #imm] (R324). -/
def execTStrhImm (off : BitVec 5) (rb rd : LowReg) (s : State) : Result :=
  thumbStore .half rd (s.addressImm 1 off rb) s

/-- LDRH Rd, [Rb, #imm] (R325). -/
def execTLdrhImm (off : BitVec 5) (rb rd : LowReg) (s : State) : Result :=
  thumbLoad .half rd (s.addressImm 1 off rb) s

/-- STR Rd, [sp, #imm] (R326). -/
def execTStrSp (rd : LowReg) (off : BitVec 8) (s : State) : Result :=
  thumbStore .word rd (s.readReg 13 + (off.setWidth 32 <<< 2)) s

/-- LDR Rd, [sp, #imm] (R327). -/
def execTLdrSp (rd : LowReg) (off : BitVec 8) (s : State) : Result :=
  thumbLoad .word rd (s.readReg 13 + (off.setWidth 32 <<< 2)) s

/-- An empty list (R330, R331, R333, R334). -/
def emptyRefusal (rs : List Reg) : Option Refusal := if rs.isEmpty then some .emptyList else none

/-- The registers of PUSH: those of the list, and lr if R = 1 (R330). -/
def pushRegisters (lr : Bool) (list : BitVec 8) : List Reg := lowRegistersOf list ++ (if lr then [14] else [])

/-- The registers of POP: those of the list, and the pc if R = 1 (R331). -/
def popRegisters (pc : Bool) (list : BitVec 8) : List Reg := lowRegistersOf list ++ (if pc then [15] else [])

/-- A Thumb block load ends: the pc, if loaded, with bit 0 as 0, in Thumb state still (R331). -/
def finishPop (pc : Option Word) (s : State) : Result :=
  match pc with
  | some v => .next (s.branchTo (halfAligned v))
  | none => .next s.advance

/-- PUSH (R330). -/
def execTPush (lr : Bool) (list : BitVec 8) (s : State) : Result :=
  let rs := pushRegisters lr list
  let start := s.readReg 13 - blockBytes rs.length
  guarded (emptyRefusal rs) (storeBlock 13 start (rs.map s.readReg) (some start) s)

/-- POP (R331). -/
def execTPop (pc : Bool) (list : BitVec 8) (s : State) : Result :=
  let rs := popRegisters pc list
  let base := s.readReg 13
  guarded (emptyRefusal rs)
    (loadBlock 13 base base rs (some (base + blockBytes rs.length)) State.withLoaded finishPop s)

/-- STMIA: with the base in the list and not the lowest it is refused, as STM is (R333). -/
def execTStmia (rb : LowReg) (list : BitVec 8) (s : State) : Result :=
  let rs := lowRegistersOf list
  let base := s.readReg (lowReg rb)
  guarded (emptyRefusal rs) (guarded (storeBaseRefusal true (lowReg rb) rs)
    (storeBlock (lowReg rb) base (rs.map s.readReg) (some (base + blockBytes rs.length)) s))

/-- LDMIA: with the base in the list the loaded value is its final one; after an abort: log 22 (R334). -/
def execTLdmia (rb : LowReg) (list : BitVec 8) (s : State) : Result :=
  let rs := lowRegistersOf list
  let base := s.readReg (lowReg rb)
  guarded (emptyRefusal rs)
    (loadBlock (lowReg rb) base base rs (some (base + blockBytes rs.length)) State.withLoaded finishPop s)

end Sys2Proof.Machine
end

