-- ==== Sys2Proof/Machine/Dispatch.lean ====
section
/-! DEFINITION. One arm for each instruction, one call of its meaning. -/

namespace Sys2Proof.Machine

/-- Executing an instruction: its meaning. -/
def exec (i : Instr) (s : State) : Host.Outcome State Fault Refusal :=
  match i with
  | .andImm c setFlags rn rd rot imm => Sys2Proof.Machine.execAndImm c setFlags rn rd rot imm s
  | .andShImm c setFlags rn rd n sh rm => Sys2Proof.Machine.execAndShImm c setFlags rn rd n sh rm s
  | .andShReg c setFlags rn rd rs sh rm => Sys2Proof.Machine.execAndShReg c setFlags rn rd rs sh rm s
  | .eorImm c setFlags rn rd rot imm => Sys2Proof.Machine.execEorImm c setFlags rn rd rot imm s
  | .eorShImm c setFlags rn rd n sh rm => Sys2Proof.Machine.execEorShImm c setFlags rn rd n sh rm s
  | .eorShReg c setFlags rn rd rs sh rm => Sys2Proof.Machine.execEorShReg c setFlags rn rd rs sh rm s
  | .subImm c setFlags rn rd rot imm => Sys2Proof.Machine.execSubImm c setFlags rn rd rot imm s
  | .subShImm c setFlags rn rd n sh rm => Sys2Proof.Machine.execSubShImm c setFlags rn rd n sh rm s
  | .subShReg c setFlags rn rd rs sh rm => Sys2Proof.Machine.execSubShReg c setFlags rn rd rs sh rm s
  | .rsbImm c setFlags rn rd rot imm => Sys2Proof.Machine.execRsbImm c setFlags rn rd rot imm s
  | .rsbShImm c setFlags rn rd n sh rm => Sys2Proof.Machine.execRsbShImm c setFlags rn rd n sh rm s
  | .rsbShReg c setFlags rn rd rs sh rm => Sys2Proof.Machine.execRsbShReg c setFlags rn rd rs sh rm s
  | .addImm c setFlags rn rd rot imm => Sys2Proof.Machine.execAddImm c setFlags rn rd rot imm s
  | .addShImm c setFlags rn rd n sh rm => Sys2Proof.Machine.execAddShImm c setFlags rn rd n sh rm s
  | .addShReg c setFlags rn rd rs sh rm => Sys2Proof.Machine.execAddShReg c setFlags rn rd rs sh rm s
  | .adcImm c setFlags rn rd rot imm => Sys2Proof.Machine.execAdcImm c setFlags rn rd rot imm s
  | .adcShImm c setFlags rn rd n sh rm => Sys2Proof.Machine.execAdcShImm c setFlags rn rd n sh rm s
  | .adcShReg c setFlags rn rd rs sh rm => Sys2Proof.Machine.execAdcShReg c setFlags rn rd rs sh rm s
  | .sbcImm c setFlags rn rd rot imm => Sys2Proof.Machine.execSbcImm c setFlags rn rd rot imm s
  | .sbcShImm c setFlags rn rd n sh rm => Sys2Proof.Machine.execSbcShImm c setFlags rn rd n sh rm s
  | .sbcShReg c setFlags rn rd rs sh rm => Sys2Proof.Machine.execSbcShReg c setFlags rn rd rs sh rm s
  | .rscImm c setFlags rn rd rot imm => Sys2Proof.Machine.execRscImm c setFlags rn rd rot imm s
  | .rscShImm c setFlags rn rd n sh rm => Sys2Proof.Machine.execRscShImm c setFlags rn rd n sh rm s
  | .rscShReg c setFlags rn rd rs sh rm => Sys2Proof.Machine.execRscShReg c setFlags rn rd rs sh rm s
  | .tstImm c rn rot imm => Sys2Proof.Machine.execTstImm c rn rot imm s
  | .tstShImm c rn n sh rm => Sys2Proof.Machine.execTstShImm c rn n sh rm s
  | .tstShReg c rn rs sh rm => Sys2Proof.Machine.execTstShReg c rn rs sh rm s
  | .teqImm c rn rot imm => Sys2Proof.Machine.execTeqImm c rn rot imm s
  | .teqShImm c rn n sh rm => Sys2Proof.Machine.execTeqShImm c rn n sh rm s
  | .teqShReg c rn rs sh rm => Sys2Proof.Machine.execTeqShReg c rn rs sh rm s
  | .cmpImm c rn rot imm => Sys2Proof.Machine.execCmpImm c rn rot imm s
  | .cmpShImm c rn n sh rm => Sys2Proof.Machine.execCmpShImm c rn n sh rm s
  | .cmpShReg c rn rs sh rm => Sys2Proof.Machine.execCmpShReg c rn rs sh rm s
  | .cmnImm c rn rot imm => Sys2Proof.Machine.execCmnImm c rn rot imm s
  | .cmnShImm c rn n sh rm => Sys2Proof.Machine.execCmnShImm c rn n sh rm s
  | .cmnShReg c rn rs sh rm => Sys2Proof.Machine.execCmnShReg c rn rs sh rm s
  | .orrImm c setFlags rn rd rot imm => Sys2Proof.Machine.execOrrImm c setFlags rn rd rot imm s
  | .orrShImm c setFlags rn rd n sh rm => Sys2Proof.Machine.execOrrShImm c setFlags rn rd n sh rm s
  | .orrShReg c setFlags rn rd rs sh rm => Sys2Proof.Machine.execOrrShReg c setFlags rn rd rs sh rm s
  | .movImm c setFlags rd rot imm => Sys2Proof.Machine.execMovImm c setFlags rd rot imm s
  | .movShImm c setFlags rd n sh rm => Sys2Proof.Machine.execMovShImm c setFlags rd n sh rm s
  | .movShReg c setFlags rd rs sh rm => Sys2Proof.Machine.execMovShReg c setFlags rd rs sh rm s
  | .bicImm c setFlags rn rd rot imm => Sys2Proof.Machine.execBicImm c setFlags rn rd rot imm s
  | .bicShImm c setFlags rn rd n sh rm => Sys2Proof.Machine.execBicShImm c setFlags rn rd n sh rm s
  | .bicShReg c setFlags rn rd rs sh rm => Sys2Proof.Machine.execBicShReg c setFlags rn rd rs sh rm s
  | .mvnImm c setFlags rd rot imm => Sys2Proof.Machine.execMvnImm c setFlags rd rot imm s
  | .mvnShImm c setFlags rd n sh rm => Sys2Proof.Machine.execMvnShImm c setFlags rd n sh rm s
  | .mvnShReg c setFlags rd rs sh rm => Sys2Proof.Machine.execMvnShReg c setFlags rd rs sh rm s
  | .mrs c r rd => Sys2Proof.Machine.execMrs c r rd s
  | .msrReg c r mask rm => Sys2Proof.Machine.execMsrReg c r mask rm s
  | .msrImm c r mask rot imm => Sys2Proof.Machine.execMsrImm c r mask rot imm s
  | .bx c rm => Sys2Proof.Machine.execBx c rm s
  | .mul c setFlags rd rs rm => Sys2Proof.Machine.execMul c setFlags rd rs rm s
  | .mla c setFlags rd rn rs rm => Sys2Proof.Machine.execMla c setFlags rd rn rs rm s
  | .umull c setFlags rdHi rdLo rs rm => Sys2Proof.Machine.execUmull c setFlags rdHi rdLo rs rm s
  | .umlal c setFlags rdHi rdLo rs rm => Sys2Proof.Machine.execUmlal c setFlags rdHi rdLo rs rm s
  | .smull c setFlags rdHi rdLo rs rm => Sys2Proof.Machine.execSmull c setFlags rdHi rdLo rs rm s
  | .smlal c setFlags rdHi rdLo rs rm => Sys2Proof.Machine.execSmlal c setFlags rdHi rdLo rs rm s
  | .swp c rn rd rm => Sys2Proof.Machine.execSwp c rn rd rm s
  | .swpb c rn rd rm => Sys2Proof.Machine.execSwpb c rn rd rm s
  | .strhReg c p u w rn rd rm => Sys2Proof.Machine.execStrhReg c p u w rn rd rm s
  | .strhImm c p u w rn rd off => Sys2Proof.Machine.execStrhImm c p u w rn rd off s
  | .ldrhReg c p u w rn rd rm => Sys2Proof.Machine.execLdrhReg c p u w rn rd rm s
  | .ldrhImm c p u w rn rd off => Sys2Proof.Machine.execLdrhImm c p u w rn rd off s
  | .ldrsbReg c p u w rn rd rm => Sys2Proof.Machine.execLdrsbReg c p u w rn rd rm s
  | .ldrsbImm c p u w rn rd off => Sys2Proof.Machine.execLdrsbImm c p u w rn rd off s
  | .ldrshReg c p u w rn rd rm => Sys2Proof.Machine.execLdrshReg c p u w rn rd rm s
  | .ldrshImm c p u w rn rd off => Sys2Proof.Machine.execLdrshImm c p u w rn rd off s
  | .strImm c u w rn rd off => Sys2Proof.Machine.execStrImm c u w rn rd off s
  | .strImmPost c u rn rd off => Sys2Proof.Machine.execStrImmPost c u rn rd off s
  | .strtImm c u rn rd off => Sys2Proof.Machine.execStrtImm c u rn rd off s
  | .strReg c u w rn rd n sh rm => Sys2Proof.Machine.execStrReg c u w rn rd n sh rm s
  | .strRegPost c u rn rd n sh rm => Sys2Proof.Machine.execStrRegPost c u rn rd n sh rm s
  | .strtReg c u rn rd n sh rm => Sys2Proof.Machine.execStrtReg c u rn rd n sh rm s
  | .ldrImm c u w rn rd off => Sys2Proof.Machine.execLdrImm c u w rn rd off s
  | .ldrImmPost c u rn rd off => Sys2Proof.Machine.execLdrImmPost c u rn rd off s
  | .ldrtImm c u rn rd off => Sys2Proof.Machine.execLdrtImm c u rn rd off s
  | .ldrReg c u w rn rd n sh rm => Sys2Proof.Machine.execLdrReg c u w rn rd n sh rm s
  | .ldrRegPost c u rn rd n sh rm => Sys2Proof.Machine.execLdrRegPost c u rn rd n sh rm s
  | .ldrtReg c u rn rd n sh rm => Sys2Proof.Machine.execLdrtReg c u rn rd n sh rm s
  | .strbImm c u w rn rd off => Sys2Proof.Machine.execStrbImm c u w rn rd off s
  | .strbImmPost c u rn rd off => Sys2Proof.Machine.execStrbImmPost c u rn rd off s
  | .strbtImm c u rn rd off => Sys2Proof.Machine.execStrbtImm c u rn rd off s
  | .strbReg c u w rn rd n sh rm => Sys2Proof.Machine.execStrbReg c u w rn rd n sh rm s
  | .strbRegPost c u rn rd n sh rm => Sys2Proof.Machine.execStrbRegPost c u rn rd n sh rm s
  | .strbtReg c u rn rd n sh rm => Sys2Proof.Machine.execStrbtReg c u rn rd n sh rm s
  | .ldrbImm c u w rn rd off => Sys2Proof.Machine.execLdrbImm c u w rn rd off s
  | .ldrbImmPost c u rn rd off => Sys2Proof.Machine.execLdrbImmPost c u rn rd off s
  | .ldrbtImm c u rn rd off => Sys2Proof.Machine.execLdrbtImm c u rn rd off s
  | .ldrbReg c u w rn rd n sh rm => Sys2Proof.Machine.execLdrbReg c u w rn rd n sh rm s
  | .ldrbRegPost c u rn rd n sh rm => Sys2Proof.Machine.execLdrbRegPost c u rn rd n sh rm s
  | .ldrbtReg c u rn rd n sh rm => Sys2Proof.Machine.execLdrbtReg c u rn rd n sh rm s
  | .undefined c hi lo => Sys2Proof.Machine.execUndefined c hi lo s
  | .ldm1 c p u w rn list => Sys2Proof.Machine.execLdm1 c p u w rn list s
  | .ldm2 c p u w rn list => Sys2Proof.Machine.execLdm2 c p u w rn list s
  | .ldm3 c p u w rn list => Sys2Proof.Machine.execLdm3 c p u w rn list s
  | .stm1 c p u w rn list => Sys2Proof.Machine.execStm1 c p u w rn list s
  | .stm2 c p u w rn list => Sys2Proof.Machine.execStm2 c p u w rn list s
  | .b c off => Sys2Proof.Machine.execB c off s
  | .bl c off => Sys2Proof.Machine.execBl c off s
  | .stc c p u n w rn crd cp off => Sys2Proof.Machine.execStc c p u n w rn crd cp off s
  | .ldc c p u n w rn crd cp off => Sys2Proof.Machine.execLdc c p u n w rn crd cp off s
  | .cdp c op1 crn crd cp op2 crm => Sys2Proof.Machine.execCdp c op1 crn crd cp op2 crm s
  | .mcr c op1 crn rd cp op2 crm => Sys2Proof.Machine.execMcr c op1 crn rd cp op2 crm s
  | .mrc c op1 crn rd cp op2 crm => Sys2Proof.Machine.execMrc c op1 crn rd cp op2 crm s
  | .swi c comment => Sys2Proof.Machine.execSwi c comment s
  | .tLslImm n rs rd => Sys2Proof.Machine.execTLslImm n rs rd s
  | .tLsrImm n rs rd => Sys2Proof.Machine.execTLsrImm n rs rd s
  | .tAsrImm n rs rd => Sys2Proof.Machine.execTAsrImm n rs rd s
  | .tAddReg rn rs rd => Sys2Proof.Machine.execTAddReg rn rs rd s
  | .tSubReg rn rs rd => Sys2Proof.Machine.execTSubReg rn rs rd s
  | .tAddImm3 imm rs rd => Sys2Proof.Machine.execTAddImm3 imm rs rd s
  | .tSubImm3 imm rs rd => Sys2Proof.Machine.execTSubImm3 imm rs rd s
  | .tMovImm8 rd imm => Sys2Proof.Machine.execTMovImm8 rd imm s
  | .tCmpImm8 rd imm => Sys2Proof.Machine.execTCmpImm8 rd imm s
  | .tAddImm8 rd imm => Sys2Proof.Machine.execTAddImm8 rd imm s
  | .tSubImm8 rd imm => Sys2Proof.Machine.execTSubImm8 rd imm s
  | .tAnd rs rd => Sys2Proof.Machine.execTAnd rs rd s
  | .tEor rs rd => Sys2Proof.Machine.execTEor rs rd s
  | .tLslReg rs rd => Sys2Proof.Machine.execTLslReg rs rd s
  | .tLsrReg rs rd => Sys2Proof.Machine.execTLsrReg rs rd s
  | .tAsrReg rs rd => Sys2Proof.Machine.execTAsrReg rs rd s
  | .tAdc rs rd => Sys2Proof.Machine.execTAdc rs rd s
  | .tSbc rs rd => Sys2Proof.Machine.execTSbc rs rd s
  | .tRorReg rs rd => Sys2Proof.Machine.execTRorReg rs rd s
  | .tTst rs rd => Sys2Proof.Machine.execTTst rs rd s
  | .tNeg rs rd => Sys2Proof.Machine.execTNeg rs rd s
  | .tCmp rs rd => Sys2Proof.Machine.execTCmp rs rd s
  | .tCmn rs rd => Sys2Proof.Machine.execTCmn rs rd s
  | .tOrr rs rd => Sys2Proof.Machine.execTOrr rs rd s
  | .tMul rs rd => Sys2Proof.Machine.execTMul rs rd s
  | .tBic rs rd => Sys2Proof.Machine.execTBic rs rd s
  | .tMvn rs rd => Sys2Proof.Machine.execTMvn rs rd s
  | .tAddHi d src => Sys2Proof.Machine.execTAddHi d src s
  | .tCmpHi d src => Sys2Proof.Machine.execTCmpHi d src s
  | .tMovHi d src => Sys2Proof.Machine.execTMovHi d src s
  | .tBx src => Sys2Proof.Machine.execTBx src s
  | .tLdrPc rd off => Sys2Proof.Machine.execTLdrPc rd off s
  | .tStrReg ro rb rd => Sys2Proof.Machine.execTStrReg ro rb rd s
  | .tStrbReg ro rb rd => Sys2Proof.Machine.execTStrbReg ro rb rd s
  | .tLdrReg ro rb rd => Sys2Proof.Machine.execTLdrReg ro rb rd s
  | .tLdrbReg ro rb rd => Sys2Proof.Machine.execTLdrbReg ro rb rd s
  | .tStrhReg ro rb rd => Sys2Proof.Machine.execTStrhReg ro rb rd s
  | .tLdsbReg ro rb rd => Sys2Proof.Machine.execTLdsbReg ro rb rd s
  | .tLdrhReg ro rb rd => Sys2Proof.Machine.execTLdrhReg ro rb rd s
  | .tLdshReg ro rb rd => Sys2Proof.Machine.execTLdshReg ro rb rd s
  | .tStrImm off rb rd => Sys2Proof.Machine.execTStrImm off rb rd s
  | .tLdrImm off rb rd => Sys2Proof.Machine.execTLdrImm off rb rd s
  | .tStrbImm off rb rd => Sys2Proof.Machine.execTStrbImm off rb rd s
  | .tLdrbImm off rb rd => Sys2Proof.Machine.execTLdrbImm off rb rd s
  | .tStrhImm off rb rd => Sys2Proof.Machine.execTStrhImm off rb rd s
  | .tLdrhImm off rb rd => Sys2Proof.Machine.execTLdrhImm off rb rd s
  | .tStrSp rd off => Sys2Proof.Machine.execTStrSp rd off s
  | .tLdrSp rd off => Sys2Proof.Machine.execTLdrSp rd off s
  | .tAddPc rd off => Sys2Proof.Machine.execTAddPc rd off s
  | .tAddSp rd off => Sys2Proof.Machine.execTAddSp rd off s
  | .tSpUp off => Sys2Proof.Machine.execTSpUp off s
  | .tSpDown off => Sys2Proof.Machine.execTSpDown off s
  | .tPush lr list => Sys2Proof.Machine.execTPush lr list s
  | .tPop pc list => Sys2Proof.Machine.execTPop pc list s
  | .tStmia rb list => Sys2Proof.Machine.execTStmia rb list s
  | .tLdmia rb list => Sys2Proof.Machine.execTLdmia rb list s
  | .tBeq off => Sys2Proof.Machine.execTBeq off s
  | .tBne off => Sys2Proof.Machine.execTBne off s
  | .tBcs off => Sys2Proof.Machine.execTBcs off s
  | .tBcc off => Sys2Proof.Machine.execTBcc off s
  | .tBmi off => Sys2Proof.Machine.execTBmi off s
  | .tBpl off => Sys2Proof.Machine.execTBpl off s
  | .tBvs off => Sys2Proof.Machine.execTBvs off s
  | .tBvc off => Sys2Proof.Machine.execTBvc off s
  | .tBhi off => Sys2Proof.Machine.execTBhi off s
  | .tBls off => Sys2Proof.Machine.execTBls off s
  | .tBge off => Sys2Proof.Machine.execTBge off s
  | .tBlt off => Sys2Proof.Machine.execTBlt off s
  | .tBgt off => Sys2Proof.Machine.execTBgt off s
  | .tBle off => Sys2Proof.Machine.execTBle off s
  | .tUndefined low => Sys2Proof.Machine.execTUndefined low s
  | .tSwi comment => Sys2Proof.Machine.execTSwi comment s
  | .tB off => Sys2Proof.Machine.execTB off s
  | .tBlPrefix off => Sys2Proof.Machine.execTBlPrefix off s
  | .tBlSuffix off => Sys2Proof.Machine.execTBlSuffix off s
  | .tUndefinedSpace h => Sys2Proof.Machine.execTUndefinedSpace h s

end Sys2Proof.Machine
end

