-- ==== Sys2Proof/Machine/Hazard.lean ====
section
/-! DEFINITION. The hazard after a User-bank transfer (45 R244, 70 R413; log 16). -/

namespace Sys2Proof.Machine

/-- Whether a coprocessor instruction offered now is accepted (46 R251): one that is not, or that makes the
core wait, reads and writes no register. -/
def State.acceptedBy (s : State) (cp : BitVec 4) : Bool :=
  s.plat.coprocs.contains cp &&
    (match s.replies with
     | .accept _ _ :: _ => true
     | .busy :: _ => false
     | [] => false)

/-- The condition of an ARM instruction and the registers of the current mode that it reads or writes if
its condition passes, but for the r14 of an exception it raises (`raised`). LDM (2) and STM (2) name their
base alone, the registers of their list being those of the User bank. None for a Thumb instruction: an
LDM (2) or STM (2) is never followed by one, since neither changes T and every exception entry clears it. -/
def namedRegisters (i : Instr) (s : State) : Option (Cond × List Reg) :=
  match i with
  | .andImm c _ rn rd _ _ => some (c, [rn, rd])
  | .andShImm c _ rn rd _ _ rm => some (c, [rn, rd, rm])
  | .andShReg c _ rn rd rs _ rm => some (c, [rn, rd, rs, rm])
  | .eorImm c _ rn rd _ _ => some (c, [rn, rd])
  | .eorShImm c _ rn rd _ _ rm => some (c, [rn, rd, rm])
  | .eorShReg c _ rn rd rs _ rm => some (c, [rn, rd, rs, rm])
  | .subImm c _ rn rd _ _ => some (c, [rn, rd])
  | .subShImm c _ rn rd _ _ rm => some (c, [rn, rd, rm])
  | .subShReg c _ rn rd rs _ rm => some (c, [rn, rd, rs, rm])
  | .rsbImm c _ rn rd _ _ => some (c, [rn, rd])
  | .rsbShImm c _ rn rd _ _ rm => some (c, [rn, rd, rm])
  | .rsbShReg c _ rn rd rs _ rm => some (c, [rn, rd, rs, rm])
  | .addImm c _ rn rd _ _ => some (c, [rn, rd])
  | .addShImm c _ rn rd _ _ rm => some (c, [rn, rd, rm])
  | .addShReg c _ rn rd rs _ rm => some (c, [rn, rd, rs, rm])
  | .adcImm c _ rn rd _ _ => some (c, [rn, rd])
  | .adcShImm c _ rn rd _ _ rm => some (c, [rn, rd, rm])
  | .adcShReg c _ rn rd rs _ rm => some (c, [rn, rd, rs, rm])
  | .sbcImm c _ rn rd _ _ => some (c, [rn, rd])
  | .sbcShImm c _ rn rd _ _ rm => some (c, [rn, rd, rm])
  | .sbcShReg c _ rn rd rs _ rm => some (c, [rn, rd, rs, rm])
  | .rscImm c _ rn rd _ _ => some (c, [rn, rd])
  | .rscShImm c _ rn rd _ _ rm => some (c, [rn, rd, rm])
  | .rscShReg c _ rn rd rs _ rm => some (c, [rn, rd, rs, rm])
  | .tstImm c rn _ _ => some (c, [rn])
  | .tstShImm c rn _ _ rm => some (c, [rn, rm])
  | .tstShReg c rn rs _ rm => some (c, [rn, rs, rm])
  | .teqImm c rn _ _ => some (c, [rn])
  | .teqShImm c rn _ _ rm => some (c, [rn, rm])
  | .teqShReg c rn rs _ rm => some (c, [rn, rs, rm])
  | .cmpImm c rn _ _ => some (c, [rn])
  | .cmpShImm c rn _ _ rm => some (c, [rn, rm])
  | .cmpShReg c rn rs _ rm => some (c, [rn, rs, rm])
  | .cmnImm c rn _ _ => some (c, [rn])
  | .cmnShImm c rn _ _ rm => some (c, [rn, rm])
  | .cmnShReg c rn rs _ rm => some (c, [rn, rs, rm])
  | .orrImm c _ rn rd _ _ => some (c, [rn, rd])
  | .orrShImm c _ rn rd _ _ rm => some (c, [rn, rd, rm])
  | .orrShReg c _ rn rd rs _ rm => some (c, [rn, rd, rs, rm])
  | .movImm c _ rd _ _ => some (c, [rd])
  | .movShImm c _ rd _ _ rm => some (c, [rd, rm])
  | .movShReg c _ rd rs _ rm => some (c, [rd, rs, rm])
  | .bicImm c _ rn rd _ _ => some (c, [rn, rd])
  | .bicShImm c _ rn rd _ _ rm => some (c, [rn, rd, rm])
  | .bicShReg c _ rn rd rs _ rm => some (c, [rn, rd, rs, rm])
  | .mvnImm c _ rd _ _ => some (c, [rd])
  | .mvnShImm c _ rd _ _ rm => some (c, [rd, rm])
  | .mvnShReg c _ rd rs _ rm => some (c, [rd, rs, rm])
  | .mrs c _ rd => some (c, [rd])
  | .msrReg c _ _ rm => some (c, [rm])
  | .msrImm c _ _ _ _ => some (c, [])
  | .bx c rm => some (c, [rm])
  | .mul c _ rd rs rm => some (c, [rd, rs, rm])
  | .mla c _ rd rn rs rm => some (c, [rd, rn, rs, rm])
  | .umull c _ rdHi rdLo rs rm => some (c, [rdHi, rdLo, rs, rm])
  | .umlal c _ rdHi rdLo rs rm => some (c, [rdHi, rdLo, rs, rm])
  | .smull c _ rdHi rdLo rs rm => some (c, [rdHi, rdLo, rs, rm])
  | .smlal c _ rdHi rdLo rs rm => some (c, [rdHi, rdLo, rs, rm])
  | .swp c rn rd rm => some (c, [rn, rd, rm])
  | .swpb c rn rd rm => some (c, [rn, rd, rm])
  | .strhReg c _ _ _ rn rd rm => some (c, [rn, rd, rm])
  | .strhImm c _ _ _ rn rd _ => some (c, [rn, rd])
  | .ldrhReg c _ _ _ rn rd rm => some (c, [rn, rd, rm])
  | .ldrhImm c _ _ _ rn rd _ => some (c, [rn, rd])
  | .ldrsbReg c _ _ _ rn rd rm => some (c, [rn, rd, rm])
  | .ldrsbImm c _ _ _ rn rd _ => some (c, [rn, rd])
  | .ldrshReg c _ _ _ rn rd rm => some (c, [rn, rd, rm])
  | .ldrshImm c _ _ _ rn rd _ => some (c, [rn, rd])
  | .strImm c _ _ rn rd _ => some (c, [rn, rd])
  | .strImmPost c _ rn rd _ => some (c, [rn, rd])
  | .strtImm c _ rn rd _ => some (c, [rn, rd])
  | .strReg c _ _ rn rd _ _ rm => some (c, [rn, rd, rm])
  | .strRegPost c _ rn rd _ _ rm => some (c, [rn, rd, rm])
  | .strtReg c _ rn rd _ _ rm => some (c, [rn, rd, rm])
  | .ldrImm c _ _ rn rd _ => some (c, [rn, rd])
  | .ldrImmPost c _ rn rd _ => some (c, [rn, rd])
  | .ldrtImm c _ rn rd _ => some (c, [rn, rd])
  | .ldrReg c _ _ rn rd _ _ rm => some (c, [rn, rd, rm])
  | .ldrRegPost c _ rn rd _ _ rm => some (c, [rn, rd, rm])
  | .ldrtReg c _ rn rd _ _ rm => some (c, [rn, rd, rm])
  | .strbImm c _ _ rn rd _ => some (c, [rn, rd])
  | .strbImmPost c _ rn rd _ => some (c, [rn, rd])
  | .strbtImm c _ rn rd _ => some (c, [rn, rd])
  | .strbReg c _ _ rn rd _ _ rm => some (c, [rn, rd, rm])
  | .strbRegPost c _ rn rd _ _ rm => some (c, [rn, rd, rm])
  | .strbtReg c _ rn rd _ _ rm => some (c, [rn, rd, rm])
  | .ldrbImm c _ _ rn rd _ => some (c, [rn, rd])
  | .ldrbImmPost c _ rn rd _ => some (c, [rn, rd])
  | .ldrbtImm c _ rn rd _ => some (c, [rn, rd])
  | .ldrbReg c _ _ rn rd _ _ rm => some (c, [rn, rd, rm])
  | .ldrbRegPost c _ rn rd _ _ rm => some (c, [rn, rd, rm])
  | .ldrbtReg c _ rn rd _ _ rm => some (c, [rn, rd, rm])
  | .undefined c _ _ => some (c, [])
  | .ldm1 c _ _ _ rn list => some (c, rn :: registersOf list)
  | .ldm2 c _ _ _ rn _ => some (c, [rn])
  | .ldm3 c _ _ _ rn list => some (c, rn :: returnRegisters list)
  | .stm1 c _ _ _ rn list => some (c, rn :: registersOf list)
  | .stm2 c _ _ _ rn _ => some (c, [rn])
  | .b c _ => some (c, [])
  | .bl c _ => some (c, [14])
  | .stc c _ _ _ _ rn _ cp _ => some (c, if s.acceptedBy cp then [rn] else [])
  | .ldc c _ _ _ _ rn _ cp _ => some (c, if s.acceptedBy cp then [rn] else [])
  | .cdp c _ _ _ _ _ _ => some (c, [])
  | .mcr c _ _ rd cp _ _ => some (c, if s.acceptedBy cp then [rd] else [])
  | .mrc c _ _ rd cp _ _ => some (c, if s.acceptedBy cp then [rd] else [])
  | .swi c _ => some (c, [])
  | .tLslImm _ _ _ => none
  | .tLsrImm _ _ _ => none
  | .tAsrImm _ _ _ => none
  | .tAddReg _ _ _ => none
  | .tSubReg _ _ _ => none
  | .tAddImm3 _ _ _ => none
  | .tSubImm3 _ _ _ => none
  | .tMovImm8 _ _ => none
  | .tCmpImm8 _ _ => none
  | .tAddImm8 _ _ => none
  | .tSubImm8 _ _ => none
  | .tAnd _ _ => none
  | .tEor _ _ => none
  | .tLslReg _ _ => none
  | .tLsrReg _ _ => none
  | .tAsrReg _ _ => none
  | .tAdc _ _ => none
  | .tSbc _ _ => none
  | .tRorReg _ _ => none
  | .tTst _ _ => none
  | .tNeg _ _ => none
  | .tCmp _ _ => none
  | .tCmn _ _ => none
  | .tOrr _ _ => none
  | .tMul _ _ => none
  | .tBic _ _ => none
  | .tMvn _ _ => none
  | .tAddHi _ _ => none
  | .tCmpHi _ _ => none
  | .tMovHi _ _ => none
  | .tBx _ => none
  | .tLdrPc _ _ => none
  | .tStrReg _ _ _ => none
  | .tStrbReg _ _ _ => none
  | .tLdrReg _ _ _ => none
  | .tLdrbReg _ _ _ => none
  | .tStrhReg _ _ _ => none
  | .tLdsbReg _ _ _ => none
  | .tLdrhReg _ _ _ => none
  | .tLdshReg _ _ _ => none
  | .tStrImm _ _ _ => none
  | .tLdrImm _ _ _ => none
  | .tStrbImm _ _ _ => none
  | .tLdrbImm _ _ _ => none
  | .tStrhImm _ _ _ => none
  | .tLdrhImm _ _ _ => none
  | .tStrSp _ _ => none
  | .tLdrSp _ _ => none
  | .tAddPc _ _ => none
  | .tAddSp _ _ => none
  | .tSpUp _ => none
  | .tSpDown _ => none
  | .tPush _ _ => none
  | .tPop _ _ => none
  | .tStmia _ _ => none
  | .tLdmia _ _ => none
  | .tBeq _ => none
  | .tBne _ => none
  | .tBcs _ => none
  | .tBcc _ => none
  | .tBmi _ => none
  | .tBpl _ => none
  | .tBvs _ => none
  | .tBvc _ => none
  | .tBhi _ => none
  | .tBls _ => none
  | .tBge _ => none
  | .tBlt _ => none
  | .tBgt _ => none
  | .tBle _ => none
  | .tUndefined _ => none
  | .tSwi _ => none
  | .tB _ => none
  | .tBlPrefix _ => none
  | .tBlSuffix _ => none
  | .tUndefinedSpace _ => none

/-- Whether a register is banked in a mode: r8 to r14 in FIQ mode, r13 and r14 in the others (R413). -/
def bankedIn (m : Mode) (r : Reg) : Bool :=
  (r == 13 || r == 14) || (m == .fiq && decide (8 ≤ r.toNat) && decide (r.toNat ≤ 12))

/-- Whether the instruction after an LDM (2) or STM (2) accesses a banked register (R244). -/
def touchesBanked (i : Instr) (s : State) : Bool :=
  match namedRegisters i s with
  | some (c, rs) => condHolds c s.cpsr && rs.any (bankedIn s.mode)
  | none => false

end Sys2Proof.Machine
end

