-- ==== Sys2Proof/Machine/Cycle.lean ====
section
/-! DEFINITION. One step of the machine: the input lines, the fetch, the instruction (60 R372). -/

namespace Sys2Proof.Machine

/-! ## The fetch -/

/-- Whether a log of stores has a byte of the `size` bytes at `a`. -/
def storedAt (log : List Host.Cell) (a : Word) (size : Nat) : Bool :=
  log.any (fun c => decide (a.toNat ≤ c.1) && decide (c.1 < a.toNat + size))

/-- Memory as it was before the stores of a log, the last undone first. -/
def undone (log : List Host.Cell) (m : Memory) : Memory :=
  log.foldr (fun c t => t.writeByte c.1 c.2) m

/-- Whether the instruction at `cur` lies in bytes stored by one of the two instructions executed before
it with no pc write in between (20_memory.md R81). -/
def State.inWindow (s : State) : Bool :=
  storedAt s.recentStores s.cur s.size || storedAt s.olderStores s.cur s.size

/-- The memory the instruction is fetched from: that of now, or, inside the prefetch window, a free
choice between it and what it was when the instruction may have been prefetched (R81, 70 R414; log 15). -/
def State.fetchMemory (s : State) : Memory :=
  if s.inWindow then
    match (Config.prefetchView s.draws).val with
    | 0 => s.mem
    | 1 => undone s.recentStores s.mem
    | _ => undone s.olderStores (undone s.recentStores s.mem)
  else s.mem

/-- The word or halfword at `cur`, in the byte order of the data (20_memory.md R65, 30 R90). -/
def State.fetched (s : State) : Code :=
  let t : State := { s with mem := s.fetchMemory }
  if s.cpsr.t then .thumb (t.readHalf s.cur) else .arm (t.readWord s.cur)

/-! ## The instruction -/

/-- The state an instruction starts from: the draw of the prefetch window counted. -/
def State.started (s : State) : State := if s.inWindow then s.drawn else s

/-- The instruction at `cur`: fetched, decoded, executed. -/
def runInstruction (s : State) : Result :=
  match decode s.fetched with
  | .error e => .refused (.undecodable e)
  | .ok i =>
    if s.afterUserBank && touchesBanked i s then .refused .bankedAfterUserBank
    else exec i s.started

/-! ## The step -/

/-- The input lines of this step; none left means not asserted (60 R371; log 9). -/
def State.linesNow (s : State) : Lines :=
  match s.lines with
  | [] => { reset := false, fiq := false, irq := false }
  | l :: _ => l

/-- The input lines of the steps after this one. -/
def State.linesSampled (s : State) : State := { s with lines := s.lines.tail }

/-- The fetch of the instruction at `cur`, which the platform may abort (60 R366, R372). -/
def fetchAndRun (s : State) : Result :=
  match s.access .fetch s.privilege s.cur s.size with
  | .aborted => .next (takePrefetchAbort s)
  | .unmapped => .fault .unmapped
  | .granted => runInstruction s

/-- The step of R372: reset, FIQ, IRQ, prefetch abort, or the instruction at `cur`. -/
def cycle (s : State) : Result :=
  let t := s.linesSampled
  if s.linesNow.reset then .next (takeReset t)
  else if modeOfBits s.cpsr.m = none then .fault .illegalMode
  else if s.pastTop then .refused .pastTop
  else if s.linesNow.fiq && !s.cpsr.f then .next (takeFiq t)
  else if s.linesNow.irq && !s.cpsr.i then .next (takeIrq t)
  else fetchAndRun t

/-! ## An instruction placed where the next fetch finds it -/

/-- Four bytes of a word stored at `a` and after it, in the byte order of the platform, the stores not
counting as the program's. -/
def State.placed (s : State) (a w : Word) : State := { s with mem := (s.writeWord a w).mem }

/-- Two bytes of a halfword stored at `a`, likewise. -/
def State.placedHalf (s : State) (a : Word) (h : Half) : State := { s with mem := (s.writeHalf a h).mem }

/-- The state with nothing in the way of a fetch of `thumb` or ARM code at `cur`. -/
def State.readyToFetch (s : State) (thumb : Bool) : State :=
  { s with cpsr := { s.cpsr with t := thumb }, lines := [], pastTop := false, afterUserBank := false,
           currentStores := [], recentStores := [], olderStores := [], plat := { s.plat with aborts := [], holes := [] } }

end Sys2Proof.Machine
end

