-- ==== Sys2Proof/Machine/Step.lean ====
section
/-! DEFINITION. The step, and the placing of an instruction where it fetches. -/

namespace Sys2Proof.Machine

/-- One step (60 R372). -/
def step (s : State) : Host.Outcome State Fault Refusal := cycle s

/-- `s` with the instruction of `nbits` bits `w` where the next step fetches it: a row of 16 bits is a
Thumb halfword (with zeros after it up to the four bytes of the longest instruction), a row of 32 bits
an ARM word. -/
def State.withFetchWord (s : State) (nbits w : Nat) : State :=
  if nbits ≤ 16 then
    ((s.readyToFetch true).placedHalf s.cur (BitVec.ofNat 16 w)).placedHalf (s.cur + 2) 0
  else (s.readyToFetch false).placed s.cur (BitVec.ofNat 32 w)

end Sys2Proof.Machine
end

