-- ==== Sys2Proof/Safety.lean ====
section
/-! DEFINITION. What counts as a safe state, and the terms in which the statements say what an
instruction changes and what it leaves. -/

namespace Sys2Proof.Machine

/-! ## Safe states -/

/-- The pc is aligned: bits 1:0 are 00 in ARM state, bit 0 is 0 in Thumb state (10_state.md R30). -/
def State.aligned (s : State) : Bool :=
  if s.cpsr.t then !s.cur.getLsbD 0 else s.cur.extractLsb' 0 2 == 0#2

/-- The mode is one of the seven (R44), the pc is aligned (R30), memory is in its canonical form, and no
instruction is half executed: no store of the instruction in execution is on record. -/
def State.inv (s : State) : Bool :=
  (modeOfBits s.cpsr.m).isSome && s.aligned && s.mem.wf && s.currentStores.isEmpty

/-! ## What is left as it was -/

/-- Every byte of memory reads as before. -/
def bytesKept (s t : State) : Prop := ∀ a, t.readByte a = s.readByte a

/-- Every byte outside the `size` bytes from `first` reads as before. -/
def bytesKeptOutside (first size : Nat) (s t : State) : Prop :=
  ∀ a, a < first ∨ first + size ≤ a → t.readByte a = s.readByte a

/-- Every general register but those at the places `ks` holds what it held. -/
def regsKeptBut (ks : List (Fin 30)) (s t : State) : Prop :=
  ∀ k : Fin 30, k ∉ ks → t.regs[k] = s.regs[k]

/-- Every SPSR holds what it held. -/
def spsrsKept (s t : State) : Prop :=
  t.spsrFiq = s.spsrFiq ∧ t.spsrIrq = s.spsrIrq ∧ t.spsrSvc = s.spsrSvc ∧ t.spsrAbt = s.spsrAbt ∧
    t.spsrUnd = s.spsrUnd

/-- The platform, the inputs to come and what the coprocessors were sent are as they were. -/
def outsideKept (s t : State) : Prop :=
  t.plat = s.plat ∧ t.lines = s.lines ∧ t.replies = s.replies ∧ t.sent = s.sent

/-- The CPSR is as it was but for N, Z, C, V. -/
def controlKept (s t : State) : Prop :=
  t.cpsr.reserved = s.cpsr.reserved ∧ t.cpsr.i = s.cpsr.i ∧ t.cpsr.f = s.cpsr.f ∧ t.cpsr.t = s.cpsr.t ∧
    t.cpsr.m = s.cpsr.m

/-- On at the next instruction in sequence (10_state.md R32, R34): the stores on record are one instruction
older (20_memory.md R81). What the instruction itself stored is said apart. -/
def followsOn (s t : State) : Prop :=
  t.cur = s.cur + (if s.cpsr.t then 2 else 4) ∧
  t.pastTop = decide (2 ^ 32 ≤ s.cur.toNat + (if s.cpsr.t then 2 else 4)) ∧
  t.olderStores = s.recentStores ∧ t.currentStores = []

/-- On in sequence after an instruction that is no User-bank transfer (45 R244). -/
def followsOnPlain (s t : State) : Prop := followsOn s t ∧ t.afterUserBank = false

/-- No store has been put on record. -/
def nothingStored (s t : State) : Prop := t.recentStores = s.currentStores

/-- On in sequence after an instruction that is no User-bank transfer and stores nothing. -/
def inSequence (s t : State) : Prop := followsOnPlain s t ∧ nothingStored s t

/-- The pc has been written: nothing counts as prefetched, no store is on record, and the top of the address
space is not run past (20_memory.md R81, 10_state.md R34). -/
def refetched (t : State) : Prop :=
  t.recentStores = [] ∧ t.olderStores = [] ∧ t.currentStores = [] ∧ t.pastTop = false

/-- On at `a` after a write of the pc by an instruction that is no User-bank transfer. -/
def wentTo (a : Word) (t : State) : Prop := t.cur = a ∧ refetched t ∧ t.afterUserBank = false

/-- What the `size` bytes from `first` hold, as a record of stores keeps it (20_memory.md R81). -/
def oldBytes (s : State) (first size : Nat) : List Host.Cell :=
  (List.range size).map fun k => (first + k, s.readByte (first + k))

/-- Nothing but general registers, N, Z, C, V, memory and the pc differs. -/
def restKept (s t : State) : Prop := controlKept s t ∧ spsrsKept s t ∧ outsideKept s t

/-! ## The step (60 R372) -/

/-- Nothing comes before the instruction at `cur`: no input line that counts, a legal mode, no run past the
top of the address space, and a granted fetch. -/
def undisturbed (s : State) : Prop :=
  s.linesNow.reset = false ∧ (s.linesNow.fiq = true → s.cpsr.f = true) ∧
  (s.linesNow.irq = true → s.cpsr.i = true) ∧ modeOfBits s.cpsr.m ≠ none ∧ s.pastTop = false ∧
  s.access .fetch s.privilege s.cur s.size = .granted

/-- The word or halfword at `cur`, if memory were `m`. -/
def codeIn (m : Memory) (s : State) : Code :=
  let u : State := { s with mem := m }
  if s.cpsr.t then .thumb (u.readHalf s.cur) else .arm (u.readWord s.cur)

/-- The state the instruction at `cur` starts from: the lines of this step are past. -/
def startOf (s : State) : State := { s with lines := s.lines.tail }

/-- Right after LDM (2) or STM (2), in mode `m`: an instruction that writes r14 of mode `m` is refused
(45 R244, 70 R413; log 16). -/
def ownBank (m : Mode) (s : State) : Prop := s.afterUserBank = true ∧ s.mode = m

/-! ## Exceptions (60 R358, R360) -/

/-- `t` is `s` after the entry of an exception into mode `m`, whose M[4:0] are `bits`, at `vector`, with
return value `ret`: r14 and SPSR of the new mode written, M, T, I and, if `masksFiq`, F, no store left on
record, and nothing else. -/
def entered (m : Mode) (bits : BitVec 5) (vector : Word) (masksFiq : Bool) (ret : Word) (s t : State) : Prop :=
  t.cur = vector ∧ refetched t ∧
  t.cpsr = { s.cpsr with m := bits, t := false, i := true, f := s.cpsr.f || masksFiq } ∧
  t.spsrOf m = some s.cpsr ∧ (∀ n, n ≠ m → t.spsrOf n = s.spsrOf n) ∧
  t.regs[regIndex m 14] = ret ∧ regsKeptBut [regIndex m 14] s t ∧ bytesKept s t ∧ outsideKept s t

/-- `t` is `s` after the entry of a Data Abort by the instruction at `s.cur` (60 R367). -/
def dataAborted (s t : State) : Prop := entered .abt 0b10111 0x10 false (s.cur + 8) s t

/-! ## The data-processing rules in closed form (41 R146 to R165) -/

/-- The result of a data-processing operation. -/
def specResult (op : AluOp) (a b : Word) (c : Bool) : Word :=
  match op with
  | .and => a &&& b
  | .eor => a ^^^ b
  | .sub => a - b
  | .rsb => b - a
  | .add => a + b
  | .adc => a + b + (if c then 1 else 0)
  | .sbc => a - b - (if c then 0 else 1)
  | .rsc => b - a - (if c then 0 else 1)
  | .tst => a &&& b
  | .teq => a ^^^ b
  | .cmp => a - b
  | .cmn => a + b
  | .orr => a ||| b
  | .mov => b
  | .bic => a &&& ~~~b
  | .mvn => ~~~b

/-- C after it: a sum that reaches 2^32, no borrow of a difference, the shifter carry-out of a logical
operation, or the old C where that is "unchanged". -/
def specCarry (op : AluOp) (a b : Word) (c : Bool) (sco : Option Bool) : Bool :=
  match op with
  | .sub => decide (b.toNat ≤ a.toNat)
  | .cmp => decide (b.toNat ≤ a.toNat)
  | .rsb => decide (a.toNat ≤ b.toNat)
  | .add => decide (2 ^ 32 ≤ a.toNat + b.toNat)
  | .cmn => decide (2 ^ 32 ≤ a.toNat + b.toNat)
  | .adc => decide (2 ^ 32 ≤ a.toNat + b.toNat + c.toNat)
  | .sbc => decide (b.toNat + (!c).toNat ≤ a.toNat)
  | .rsc => decide (a.toNat + (!c).toNat ≤ b.toNat)
  | .and => sco.getD c
  | .eor => sco.getD c
  | .tst => sco.getD c
  | .teq => sco.getD c
  | .orr => sco.getD c
  | .mov => sco.getD c
  | .bic => sco.getD c
  | .mvn => sco.getD c

/-- The exact signed sum or difference of an arithmetic operation; none for a logical one. -/
def specExact (op : AluOp) (a b : Word) (c : Bool) : Option Int :=
  match op with
  | .sub => some (a.toInt - b.toInt)
  | .cmp => some (a.toInt - b.toInt)
  | .rsb => some (b.toInt - a.toInt)
  | .add => some (a.toInt + b.toInt)
  | .cmn => some (a.toInt + b.toInt)
  | .adc => some (a.toInt + b.toInt + c.toNat)
  | .sbc => some (a.toInt - b.toInt - (!c).toNat)
  | .rsc => some (b.toInt - a.toInt - (!c).toNat)
  | .and => none
  | .eor => none
  | .tst => none
  | .teq => none
  | .orr => none
  | .mov => none
  | .bic => none
  | .mvn => none

/-- V after it: the result is not the exact signed one; unchanged for a logical operation. -/
def specOverflow (op : AluOp) (a b : Word) (c old : Bool) : Bool :=
  match specExact op a b c with
  | some x => decide ((specResult op a b c).toInt ≠ x)
  | none => old

/-- N, Z, C, V of `t` are those the operation gives on `a` and the operand `o` in `s`. -/
def flagsGiven (op : AluOp) (a : Word) (o : Shifted) (s t : State) : Prop :=
  t.cpsr.n = (specResult op a o.value s.cpsr.c).msb ∧
  t.cpsr.z = decide (specResult op a o.value s.cpsr.c = 0) ∧
  t.cpsr.c = specCarry op a o.value s.cpsr.c o.carry ∧
  t.cpsr.v = specOverflow op a o.value s.cpsr.c s.cpsr.v

/-- The N, Z, C, V of `s` are those of `t`. -/
def flagsKept (s t : State) : Prop :=
  t.cpsr.n = s.cpsr.n ∧ t.cpsr.z = s.cpsr.z ∧ t.cpsr.c = s.cpsr.c ∧ t.cpsr.v = s.cpsr.v

/-- The effect of a data-processing instruction whose destination, if it has one, is `rd`, not r15: the
result in `rd` and no other register changed, none for a compare; the flags as the operation gives them
where they are set, else kept; memory, the rest of the status and the rest of the machine kept. -/
def dataEffect (op : AluOp) (setFlags : Bool) (rd : Reg) (a : Word) (o : Shifted) (s t : State) : Prop :=
  (if op.compares then regsKeptBut [] s t
   else t.readReg rd = specResult op a o.value s.cpsr.c ∧ regsKeptBut [regIndex s.mode rd] s t) ∧
  (if op.compares || setFlags then flagsGiven op a o s t else flagsKept s t) ∧
  bytesKept s t ∧ restKept s t ∧ inSequence s t

/-! ## Single transfers (44 R201 to R218, 48 R310 to R327) -/

/-- A load or a store, of what kind. -/
inductive TransferOp where
  | load (k : LoadKind)
  | store (k : StoreKind)
  deriving DecidableEq, Repr

/-- A single transfer, with its operands read: P, U, W, the base register and its value, the register
loaded or stored, the offset and the offset register, the privilege of the access, whether Rd = 15 is
forbidden. -/
structure Transfer where
  op : TransferOp
  priv : Privilege
  c : Cond
  p : Bool
  u : Bool
  w : Bool
  rn : Reg
  rd : Reg
  base : Word
  off : Word
  rm : Option Reg
  noPc : Bool
  deriving DecidableEq, Repr

/-- A register shifted by an immediate, as an offset (44 R201). -/
def shiftedOffset (s : State) (n : BitVec 5) (sh : Shift) (rm : Reg) : Word :=
  (shiftByImmediate sh (s.readReg rm) n s.cpsr.c).value

/-- The ARM single transfers of words and unsigned bytes (44 R200 to R213). -/
def wordOrByteTransfer (i : Instr) (s : State) : Option Transfer :=
  let imm := fun (op : TransferOp) (noPc : Bool) (priv : Privilege) (c : Cond) (p u w : Bool) (rn rd : Reg)
      (off : BitVec 12) => some (Transfer.mk op priv c p u w rn rd (s.readReg rn) (off.setWidth 32) none noPc)
  let reg := fun (op : TransferOp) (noPc : Bool) (priv : Privilege) (c : Cond) (p u w : Bool) (rn rd : Reg)
      (n : BitVec 5) (sh : Shift) (rm : Reg) =>
    some (Transfer.mk op priv c p u w rn rd (s.readReg rn) (shiftedOffset s n sh rm) (some rm) noPc)
  match i with
  | .strImm c u w rn rd off => imm (.store .word) false s.privilege c true u w rn rd off
  | .strImmPost c u rn rd off => imm (.store .word) false s.privilege c false u false rn rd off
  | .strtImm c u rn rd off => imm (.store .word) true .user c false u true rn rd off
  | .strReg c u w rn rd n sh rm => reg (.store .word) false s.privilege c true u w rn rd n sh rm
  | .strRegPost c u rn rd n sh rm => reg (.store .word) false s.privilege c false u false rn rd n sh rm
  | .strtReg c u rn rd n sh rm => reg (.store .word) true .user c false u true rn rd n sh rm
  | .ldrImm c u w rn rd off => imm (.load .word) false s.privilege c true u w rn rd off
  | .ldrImmPost c u rn rd off => imm (.load .word) false s.privilege c false u false rn rd off
  | .ldrtImm c u rn rd off => imm (.load .word) true .user c false u true rn rd off
  | .ldrReg c u w rn rd n sh rm => reg (.load .word) false s.privilege c true u w rn rd n sh rm
  | .ldrRegPost c u rn rd n sh rm => reg (.load .word) false s.privilege c false u false rn rd n sh rm
  | .ldrtReg c u rn rd n sh rm => reg (.load .word) true .user c false u true rn rd n sh rm
  | .strbImm c u w rn rd off => imm (.store .byte) true s.privilege c true u w rn rd off
  | .strbImmPost c u rn rd off => imm (.store .byte) true s.privilege c false u false rn rd off
  | .strbtImm c u rn rd off => imm (.store .byte) true .user c false u true rn rd off
  | .strbReg c u w rn rd n sh rm => reg (.store .byte) true s.privilege c true u w rn rd n sh rm
  | .strbRegPost c u rn rd n sh rm => reg (.store .byte) true s.privilege c false u false rn rd n sh rm
  | .strbtReg c u rn rd n sh rm => reg (.store .byte) true .user c false u true rn rd n sh rm
  | .ldrbImm c u w rn rd off => imm (.load .byte) true s.privilege c true u w rn rd off
  | .ldrbImmPost c u rn rd off => imm (.load .byte) true s.privilege c false u false rn rd off
  | .ldrbtImm c u rn rd off => imm (.load .byte) true .user c false u true rn rd off
  | .ldrbReg c u w rn rd n sh rm => reg (.load .byte) true s.privilege c true u w rn rd n sh rm
  | .ldrbRegPost c u rn rd n sh rm => reg (.load .byte) true s.privilege c false u false rn rd n sh rm
  | .ldrbtReg c u rn rd n sh rm => reg (.load .byte) true .user c false u true rn rd n sh rm
  | _ => none

/-- The ARM halfword and signed transfers (44 R214 to R218). -/
def halfOrSignedTransfer (i : Instr) (s : State) : Option Transfer :=
  let imm := fun (op : TransferOp) (c : Cond) (p u w : Bool) (rn rd : Reg) (off : BitVec 8) =>
    some (Transfer.mk op s.privilege c p u w rn rd (s.readReg rn) (off.setWidth 32) none true)
  let reg := fun (op : TransferOp) (c : Cond) (p u w : Bool) (rn rd rm : Reg) =>
    some (Transfer.mk op s.privilege c p u w rn rd (s.readReg rn) (s.readReg rm) (some rm) true)
  match i with
  | .strhReg c p u w rn rd rm => reg (.store .half) c p u w rn rd rm
  | .strhImm c p u w rn rd off => imm (.store .half) c p u w rn rd off
  | .ldrhReg c p u w rn rd rm => reg (.load .half) c p u w rn rd rm
  | .ldrhImm c p u w rn rd off => imm (.load .half) c p u w rn rd off
  | .ldrsbReg c p u w rn rd rm => reg (.load .signedByte) c p u w rn rd rm
  | .ldrsbImm c p u w rn rd off => imm (.load .signedByte) c p u w rn rd off
  | .ldrshReg c p u w rn rd rm => reg (.load .signedHalf) c p u w rn rd rm
  | .ldrshImm c p u w rn rd off => imm (.load .signedHalf) c p u w rn rd off
  | _ => none

/-- The Thumb single transfers (48 R311 to R327): base plus offset, no write-back. -/
def thumbTransfer (i : Instr) (s : State) : Option Transfer :=
  let form := fun (op : TransferOp) (rd : LowReg) (base off : Word) =>
    some (Transfer.mk op s.privilege .al true true false 0 (lowReg rd) base off none false)
  let low := fun (r : LowReg) => s.readReg (lowReg r)
  match i with
  | .tLdrPc rd off => form (.load .word) rd (wordAligned s.pcValue) (off.setWidth 32 * 4)
  | .tStrReg ro rb rd => form (.store .word) rd (low rb) (low ro)
  | .tStrbReg ro rb rd => form (.store .byte) rd (low rb) (low ro)
  | .tLdrReg ro rb rd => form (.load .word) rd (low rb) (low ro)
  | .tLdrbReg ro rb rd => form (.load .byte) rd (low rb) (low ro)
  | .tStrhReg ro rb rd => form (.store .half) rd (low rb) (low ro)
  | .tLdsbReg ro rb rd => form (.load .signedByte) rd (low rb) (low ro)
  | .tLdrhReg ro rb rd => form (.load .half) rd (low rb) (low ro)
  | .tLdshReg ro rb rd => form (.load .signedHalf) rd (low rb) (low ro)
  | .tStrImm off rb rd => form (.store .word) rd (low rb) (off.setWidth 32 * 4)
  | .tLdrImm off rb rd => form (.load .word) rd (low rb) (off.setWidth 32 * 4)
  | .tStrbImm off rb rd => form (.store .byte) rd (low rb) (off.setWidth 32)
  | .tLdrbImm off rb rd => form (.load .byte) rd (low rb) (off.setWidth 32)
  | .tStrhImm off rb rd => form (.store .half) rd (low rb) (off.setWidth 32 * 2)
  | .tLdrhImm off rb rd => form (.load .half) rd (low rb) (off.setWidth 32 * 2)
  | .tStrSp rd off => form (.store .word) rd (s.readReg 13) (off.setWidth 32 * 4)
  | .tLdrSp rd off => form (.load .word) rd (s.readReg 13) (off.setWidth 32 * 4)
  | _ => none

/-- The single transfers. A halfword form with P = 0 and W = 1 is none (44 R214). -/
def singleTransfer (i : Instr) (s : State) : Option Transfer :=
  match wordOrByteTransfer i s with
  | some x => some x
  | none =>
    match halfOrSignedTransfer i s with
    | some x => if !x.p && x.w then none else some x
    | none => thumbTransfer i s

/-- The bytes of the access. -/
def Transfer.size (x : Transfer) : Nat :=
  match x.op with
  | .load k => k.size
  | .store k => k.size

/-- The kind of the access. -/
def Transfer.kind (x : Transfer) : AccessKind :=
  match x.op with
  | .load _ => .read
  | .store _ => .write

/-- The base plus or minus the offset (44 R201). -/
def Transfer.index (x : Transfer) : Word := if x.u then x.base + x.off else x.base - x.off

/-- The address of the access (44 R202). -/
def Transfer.address (x : Transfer) : Word := if x.p then x.index else x.base

/-- Whether the base is written back (44 R202). -/
def Transfer.writesBack (x : Transfer) : Bool := !x.p || x.w

/-- `s` with the base written back, where the form does so (44 R202). -/
def Transfer.based (x : Transfer) (s : State) : State := if x.writesBack then s.writeReg x.rn x.index else s

/-- r15 where the rule forbids it (44 R203, R214). -/
def Transfer.namesPc (x : Transfer) : Prop :=
  x.rm = some 15 ∨ (x.noPc = true ∧ x.rd = 15) ∨ (x.writesBack = true ∧ x.rn = 15)

/-- Write-back with Rd = Rn or Rm = Rn (44 R203). -/
def Transfer.clashes (x : Transfer) : Prop := x.writesBack = true ∧ (x.rd = x.rn ∨ x.rm = some x.rn)

/-- A halfword access at an odd address (20_memory.md R69). -/
def Transfer.odd (x : Transfer) : Prop := x.size = 2 ∧ x.address.toNat % 2 = 1

/-- The instruction executes, on operands its rule allows. -/
def Transfer.allowed (x : Transfer) (s : State) : Prop :=
  condHolds x.c s.cpsr = true ∧ ¬ x.namesPc ∧ ¬ x.clashes ∧ ¬ x.odd

/-- What the platform answers to the access; a word is asked for at its aligned address (R67, R68). -/
def Transfer.answer (x : Transfer) (s : State) : Grant :=
  s.access x.kind x.priv (if x.size = 4 then BitVec.ofNat 32 (x.address.toNat / 4 * 4) else x.address) x.size

/-- The places of the registers that change beside the one loaded: the base, where it is written back. -/
def Transfer.basePlaces (x : Transfer) (s : State) : List (Fin 30) :=
  if x.writesBack then [regIndex s.mode x.rn] else []

/-- The value a load of kind `k` at `a` gives (20_memory.md R67, R83). -/
def specLoaded (k : LoadKind) (a : Word) (s : State) (v : Word) : Prop :=
  match k with
  | .word => v = (s.readWord (BitVec.ofNat 32 (a.toNat / 4 * 4))).rotateRight (8 * (a.toNat % 4))
  | .byte => v.toNat = (s.readByte a.toNat).toNat
  | .signedByte => v.toInt = (s.readByte a.toNat).toInt
  | .half => v.toNat = (s.readHalf a).toNat
  | .signedHalf => v.toInt = (s.readHalf a).toInt

/-- The `size` bytes from `first` are all that was stored: every other byte reads as before, and what they
held is on record (20_memory.md R81). -/
def storedOnly (first size : Nat) (s t : State) : Prop :=
  bytesKeptOutside first size s t ∧ t.recentStores = s.currentStores ++ oldBytes s first size

/-- What memory holds after a store of kind `k` of `v` at `a` (20_memory.md R68, R83), what it keeps, and
what is put on record. -/
def specStored (k : StoreKind) (a v : Word) (s t : State) : Prop :=
  match k with
  | .word => t.readWord (BitVec.ofNat 32 (a.toNat / 4 * 4)) = v ∧ storedOnly (a.toNat / 4 * 4) 4 s t
  | .byte => t.readByte a.toNat = v.setWidth 8 ∧ storedOnly a.toNat 1 s t
  | .half => t.readHalf a = v.setWidth 16 ∧ storedOnly a.toNat 2 s t

/-- The value a store takes from a register: for r15, cur + 8 or cur + 12 as the platform has it (44 R204). -/
def specStoredValue (rd : Reg) (s : State) : Word :=
  if rd = 15 then (match s.plat.pcStore with | .plus8 => s.cur + 8 | .plus12 => s.cur + 12) else s.readReg rd

/-! ## Block transfers (45 R231 to R242, 48 R330 to R334) -/

/-- 4 n, as a word. -/
def four (n : Nat) : Word := BitVec.ofNat 32 (4 * n)

/-- start_address of a block of `n` words (45 R231): 4 further on where P = U. -/
def specStart (p u : Bool) (base : Word) (n : Nat) : Word :=
  (if u then base else base - four n) + (if p = u then 4 else 0)

/-- The final value of the base (45 R231). -/
def specFinal (u : Bool) (base : Word) (n : Nat) : Word := if u then base + four n else base - four n

/-- The address of the k-th transfer, bits 1:0 ignored (45 R232). -/
def blockAddress (start : Word) (k : Nat) : Word := BitVec.ofNat 32 ((start + four k).toNat / 4 * 4)

/-- What the platform answers to the k-th transfer. -/
def blockAnswer (kind : AccessKind) (start : Word) (s : State) (k : Nat) : Grant :=
  s.access kind s.privilege (blockAddress start k) 4

/-- The platform grants the `n` transfers of a block. -/
def blockGranted (kind : AccessKind) (start : Word) (n : Nat) (s : State) : Prop :=
  ∀ k, k < n → blockAnswer kind start s k = .granted

/-- The registers `rs` of mode `m`, r15 apart, hold the words of a block, in order. -/
def blockInRegs (m : Mode) (rs : List Reg) (start : Word) (s t : State) : Prop :=
  ∀ k (h : k < rs.length), rs[k] ≠ 15 → t.regs[regIndex m rs[k]] = s.readWord (blockAddress start k)

/-- Every byte outside the `n` words of a block reads as before. -/
def bytesKeptOutsideBlock (start : Word) (n : Nat) (s t : State) : Prop :=
  ∀ a, (∀ k, k < n → a < (blockAddress start k).toNat ∨ (blockAddress start k).toNat + 4 ≤ a) →
    t.readByte a = s.readByte a

/-- The `n` words of a block are all that was stored: every other byte reads as before, and what they held
is on record (20_memory.md R81). -/
def blockStoredOnly (start : Word) (n : Nat) (s t : State) : Prop :=
  bytesKeptOutsideBlock start n s t ∧
  t.recentStores = s.currentStores ++ (List.range n).flatMap fun k => oldBytes s (blockAddress start k).toNat 4

/-- The values `vs` are the words of a block, and nothing else was stored. -/
def blockInMemory (vs : List Word) (start : Word) (s t : State) : Prop :=
  (∀ k (h : k < vs.length), t.readWord (blockAddress start k) = vs[k]) ∧ blockStoredOnly start vs.length s t

/-- The places of the registers `rs` of mode `m`, r15 apart. -/
def placesOf (m : Mode) (rs : List Reg) : List (Fin 30) := (rs.filter (fun r => r ≠ 15)).map (regIndex m)

/-- The place of the base, where it is written back. -/
def baseIf (w : Bool) (m : Mode) (rn : Reg) : List (Fin 30) := if w then [regIndex m rn] else []

/-- A block transfer whose operands its rule allows: its condition, whether it loads, whether it is an LDM (2)
or STM (2), the base register, the mode whose registers it transfers, those registers, start_address, the
final value of the base where it is written back, and the values a store stores. -/
structure Block where
  c : Cond
  load : Bool
  userBank : Bool
  rn : Reg
  bank : Mode
  rs : List Reg
  start : Word
  final : Option Word
  values : List Word
  deriving DecidableEq, Repr

/-- The block transfer an instruction is, where its rule allows its operands: LDM and STM (45 R230 to R239),
PUSH, POP, STMIA and LDMIA (48 R330 to R334). -/
def blockForm (i : Instr) (s : State) : Option Block :=
  let arm := fun (ok load userBank : Bool) (c : Cond) (p u w : Bool) (rn : Reg) (rs : List Reg)
      (values : List Word) =>
    let base := s.readReg rn
    if ok && !rs.isEmpty && rn != 15 then
      some (Block.mk c load userBank rn (if userBank then .usr else s.mode) rs (specStart p u base rs.length)
        (if w then some (specFinal u base rs.length) else none) values)
    else none
  let thumb := fun (load : Bool) (rn : Reg) (rs : List Reg) (start final : Word) (values : List Word) =>
    if rs.isEmpty then none else some (Block.mk .al load false rn s.mode rs start (some final) values)
  let low := fun (list : BitVec 8) => registersOf (list.setWidth 16)
  let banked := s.mode != .usr && s.mode != .sys
  match i with
  | .ldm1 c p u w rn list =>
    let rs := registersOf list
    arm (!(w && rs.contains rn)) true false c p u w rn rs []
  | .ldm2 c p u w rn list => arm (!w && banked) true true c p u w rn (registersOf (list.setWidth 16)) []
  | .ldm3 c p u w rn list =>
    let rs := registersOf (list.setWidth 16 ||| 0x8000#16)
    arm (!(w && rs.contains rn) && banked) true false c p u w rn rs []
  | .stm1 c p u w rn list =>
    let rs := registersOf list
    arm (!(w && rs.contains rn && rs.head? != some rn)) false false c p u w rn rs
      (rs.map fun r => specStoredValue r s)
  | .stm2 c p u w rn list =>
    let rs := registersOf list
    arm (!w && banked) false true c p u w rn rs
      (rs.map fun r => if r = 15 then specStoredValue 15 s else s.regs[regIndex .usr r])
  | .tPush lr list =>
    let rs := low list ++ (if lr then [14] else [])
    let start := s.readReg 13 - four rs.length
    thumb false 13 rs start start (rs.map s.readReg)
  | .tPop pc list =>
    let rs := low list ++ (if pc then [15] else [])
    thumb true 13 rs (s.readReg 13) (s.readReg 13 + four rs.length) []
  | .tStmia rb list =>
    let rs := low list
    let base := s.readReg (lowReg rb)
    if rs.contains (lowReg rb) && rs.head? != some (lowReg rb) then none
    else thumb false (lowReg rb) rs base (base + four rs.length) (rs.map s.readReg)
  | .tLdmia rb list =>
    let rs := low list
    let base := s.readReg (lowReg rb)
    thumb true (lowReg rb) rs base (base + four rs.length) []
  | _ => none

/-- Among the `n` accesses of a load of consecutive words, the `j`-th is the first the platform does not grant,
and `g` is its answer. -/
def loadStopsAt (start : Word) (n j : Nat) (g : Grant) (s : State) : Prop :=
  j < n ∧ (∀ k, k < j → blockAnswer .read start s k = .granted) ∧ blockAnswer .read start s j = g

/-- Among the `n` accesses of a store of consecutive words some abort, and something is mapped at each. -/
def storeAborts (start : Word) (n : Nat) (s : State) : Prop :=
  (∀ k, k < n → blockAnswer .write start s k ≠ .unmapped) ∧
  ∃ k, k < n ∧ blockAnswer .write start s k = .aborted

/-- What an aborted store of consecutive words leaves in memory (45 R242): each word granted holds its value,
and no other byte has changed. -/
def grantedInMemory (values : List Word) (start : Word) (s t : State) : Prop :=
  (∀ k (h : k < values.length), blockAnswer .write start s k = .granted →
    t.readWord (blockAddress start k) = values[k]) ∧
  ∀ a, (∀ k, k < values.length → blockAnswer .write start s k = .granted →
      a < (blockAddress start k).toNat ∨ (blockAddress start k).toNat + 4 ≤ a) → t.readByte a = s.readByte a

/-- The words that the first `j` transfers of a block load are in their registers, but where that is the base,
and the base is as the rule leaves it (45 R242). -/
def Block.loadedUpTo (b : Block) (j : Nat) (s t : State) : Prop :=
  t.regs[regIndex s.mode b.rn] = b.final.getD (s.readReg b.rn) ∧
  (∀ k (h : k < b.rs.length), k < j → regIndex b.bank b.rs[k] ≠ regIndex s.mode b.rn →
    t.regs[regIndex b.bank b.rs[k]] = s.readWord (blockAddress b.start k)) ∧
  regsKeptBut (regIndex s.mode b.rn :: placesOf b.bank (b.rs.take j)) s t

/-! ## Thumb data processing (47 R265 to R295) -/

/-- The Thumb instructions of formats 1 to 4 but MUL: the operation of the ARM equivalent with S = 1, its
destination, first operand and second operand. -/
def thumbDataForm (i : Instr) (s : State) : Option (AluOp × LowReg × Word × Shifted) :=
  let low := fun (r : LowReg) => s.readReg (lowReg r)
  let plain := fun (v : Word) => Shifted.mk v none
  let by5 := fun (sh : Shift) (r : LowReg) (n : BitVec 5) => shiftByImmediate sh (low r) n s.cpsr.c
  match i with
  | .tLslImm n rs rd => some (.mov, rd, 0, by5 .lsl rs n)
  | .tLsrImm n rs rd => some (.mov, rd, 0, by5 .lsr rs n)
  | .tAsrImm n rs rd => some (.mov, rd, 0, by5 .asr rs n)
  | .tAddReg rn rs rd => some (.add, rd, low rs, plain (low rn))
  | .tSubReg rn rs rd => some (.sub, rd, low rs, plain (low rn))
  | .tAddImm3 imm rs rd => some (.add, rd, low rs, plain (imm.setWidth 32))
  | .tSubImm3 imm rs rd => some (.sub, rd, low rs, plain (imm.setWidth 32))
  | .tMovImm8 rd imm => some (.mov, rd, 0, plain (imm.setWidth 32))
  | .tCmpImm8 rd imm => some (.cmp, rd, low rd, plain (imm.setWidth 32))
  | .tAddImm8 rd imm => some (.add, rd, low rd, plain (imm.setWidth 32))
  | .tSubImm8 rd imm => some (.sub, rd, low rd, plain (imm.setWidth 32))
  | .tAnd rs rd => some (.and, rd, low rd, plain (low rs))
  | .tEor rs rd => some (.eor, rd, low rd, plain (low rs))
  | .tLslReg rs rd => some (.mov, rd, 0, shiftByRegister .lsl (low rd) (low rs))
  | .tLsrReg rs rd => some (.mov, rd, 0, shiftByRegister .lsr (low rd) (low rs))
  | .tAsrReg rs rd => some (.mov, rd, 0, shiftByRegister .asr (low rd) (low rs))
  | .tAdc rs rd => some (.adc, rd, low rd, plain (low rs))
  | .tSbc rs rd => some (.sbc, rd, low rd, plain (low rs))
  | .tRorReg rs rd => some (.mov, rd, 0, shiftByRegister .ror (low rd) (low rs))
  | .tTst rs rd => some (.tst, rd, low rd, plain (low rs))
  | .tNeg rs rd => some (.rsb, rd, low rs, plain 0)
  | .tCmp rs rd => some (.cmp, rd, low rd, plain (low rs))
  | .tCmn rs rd => some (.cmn, rd, low rd, plain (low rs))
  | .tOrr rs rd => some (.orr, rd, low rd, plain (low rs))
  | .tBic rs rd => some (.bic, rd, low rd, plain (low rs))
  | .tMvn rs rd => some (.mvn, rd, 0, plain (low rs))
  | _ => none

/-! ## Coprocessor instructions (46 R251 to R257) -/

/-- A coprocessor instruction: its condition, the coprocessor, and whether its rule forbids its operands. -/
def coprocForm (i : Instr) : Option (Cond × BitVec 4 × Bool) :=
  match i with
  | .cdp c _ _ _ cp _ _ => some (c, cp, false)
  | .mcr c _ _ _ cp _ _ => some (c, cp, false)
  | .mrc c _ _ _ cp _ _ => some (c, cp, false)
  | .ldc c p u _ w rn _ cp _ => some (c, cp, (w && rn == 15) || (!p && !w && !u))
  | .stc c p u _ w rn _ cp _ => some (c, cp, (w && rn == 15) || (!p && !w && !u))
  | _ => none

/-- The instruction executes and coprocessor `cp` is there to answer. -/
def offersTo (c : Cond) (cp : BitVec 4) (s : State) : Prop :=
  condHolds c s.cpsr = true ∧ cp ≠ 14 ∧ cp ∈ s.plat.coprocs

/-- The address of LDC and STC (46 R254). -/
def coprocAddress (p u : Bool) (base : Word) (off : BitVec 8) : Word :=
  if p then (if u then base + off.setWidth 32 * 4 else base - off.setWidth 32 * 4) else base

/-- The base after LDC and STC with W = 1. -/
def coprocBase (u : Bool) (base : Word) (off : BitVec 8) : Word :=
  if u then base + off.setWidth 32 * 4 else base - off.setWidth 32 * 4

/-- What a coprocessor instruction leaves of the outside: the platform and the lines. -/
def coprocKept (s t : State) : Prop := controlKept s t ∧ spsrsKept s t ∧ t.plat = s.plat ∧ t.lines = s.lines

/-! ## Status register transfer (42 R181, R182) -/

/-- A word shows a status register outside its reserved bits (10_state.md R40, R46). -/
def showsStatus (p : Psr) (w : Word) : Prop :=
  w.getLsbD 31 = p.n ∧ w.getLsbD 30 = p.z ∧ w.getLsbD 29 = p.c ∧ w.getLsbD 28 = p.v ∧
  w.getLsbD 7 = p.i ∧ w.getLsbD 6 = p.f ∧ w.getLsbD 5 = p.t ∧ w.extractLsb' 0 5 = p.m

/-- `i` is an MSR, in either form, with field mask `mask`, that writes `v` (42 R182). -/
def isMsr (i : Instr) (c : Cond) (toSpsr : Bool) (mask : BitVec 4) (v : Word) (s : State) : Prop :=
  (∃ rm, rm ≠ 15 ∧ i = .msrReg c toSpsr mask rm ∧ v = s.readReg rm) ∨
  (∃ rot imm, i = .msrImm c toSpsr mask rot imm ∧ v = (imm.setWidth 32).rotateRight (2 * rot.toNat))

/-- The flags of `q` are those of the word `v` if `written`, else those of `p`. -/
def flagFieldOf (written : Bool) (v : Word) (p q : Psr) : Prop :=
  if written then
    q.n = v.getLsbD 31 ∧ q.z = v.getLsbD 30 ∧ q.c = v.getLsbD 29 ∧ q.v = v.getLsbD 28
  else q.n = p.n ∧ q.z = p.z ∧ q.c = p.c ∧ q.v = p.v

/-- The control bits of `q` are those of the word `v` if `written`, else those of `p`. -/
def controlFieldOf (written : Bool) (v : Word) (p q : Psr) : Prop :=
  if written then
    q.i = v.getLsbD 7 ∧ q.f = v.getLsbD 6 ∧ q.t = v.getLsbD 5 ∧ q.m = v.extractLsb' 0 5
  else q.i = p.i ∧ q.f = p.f ∧ q.t = p.t ∧ q.m = p.m

/-! ## Other effects -/

/-- A jump: no register, no flag, no memory, nothing of the rest changes but the pc, which is `a`. -/
def jumped (a : Word) (s t : State) : Prop :=
  wentTo a t ∧ regsKeptBut [] s t ∧ flagsKept s t ∧ bytesKept s t ∧ restKept s t

/-- Only the pc has changed: on at the next instruction (30 R92). -/
def onlyAdvanced (s t : State) : Prop :=
  inSequence s t ∧ regsKeptBut [] s t ∧ flagsKept s t ∧ bytesKept s t ∧ restKept s t

/-- The value `v` in `rd` and nothing else, on at the next instruction. -/
def wroteOnly (rd : Reg) (v : Word) (s t : State) : Prop :=
  inSequence s t ∧ t.readReg rd = v ∧ regsKeptBut [regIndex s.mode rd] s t ∧ flagsKept s t ∧
  bytesKept s t ∧ restKept s t

/-- A word with bits 1:0 as 00. -/
def lowTwoCleared (a : Word) : Word := BitVec.ofNat 32 (a.toNat / 4 * 4)

/-- A word with bit 0 as 0. -/
def lowOneCleared (a : Word) : Word := BitVec.ofNat 32 (a.toNat / 2 * 2)

/-- `i` is a data-processing instruction of `op` with Rd = 15 and second operand `o` (41 R148, R149). -/
def dataToPc (i : Instr) (op : AluOp) (c : Cond) (setFlags : Bool) (rn : Reg) (o : Shifted) (s : State) : Prop :=
  (∃ rot imm, i = Instr.dpImm op c setFlags rn 15 rot imm ∧
    o.value = (imm.setWidth 32).rotateRight (2 * rot.toNat)) ∨
  (∃ n sh rm, i = Instr.dpShImm op c setFlags rn 15 n sh rm ∧
    o = shiftByImmediate sh (s.readReg rm) n s.cpsr.c)

/-- The flags of a product: N and Z of `neg` and `zero`, V kept if `keepV`, or all kept without S. C is
open (D18). -/
def productFlags (setFlags : Bool) (neg zero keepV : Bool) (s t : State) : Prop :=
  if setFlags then t.cpsr.n = neg ∧ t.cpsr.z = zero ∧ (keepV = true → t.cpsr.v = s.cpsr.v) else flagsKept s t

/-- A 32-bit product in `rd` (43 R191, R192). -/
def multiplied (setFlags : Bool) (rd : Reg) (v : Word) (s t : State) : Prop :=
  t.readReg rd = v ∧ regsKeptBut [regIndex s.mode rd] s t ∧ productFlags setFlags v.msb (decide (v = 0)) true s t ∧
  bytesKept s t ∧ restKept s t ∧ inSequence s t

/-- A 64-bit product in `rdHi` and `rdLo` (43 R193). -/
def longMultiplied (setFlags : Bool) (rdHi rdLo : Reg) (v : BitVec 64) (s t : State) : Prop :=
  t.readReg rdHi ++ t.readReg rdLo = v ∧ regsKeptBut [regIndex s.mode rdHi, regIndex s.mode rdLo] s t ∧
  productFlags setFlags v.msb (decide (v = 0)) false s t ∧ bytesKept s t ∧ restKept s t ∧ inSequence s t

/-- The registers of the long multiplies are allowed (43 R190, R193). -/
def longAllowed (rdHi rdLo rs rm : Reg) : Prop :=
  rdHi ≠ 15 ∧ rdLo ≠ 15 ∧ rs ≠ 15 ∧ rm ≠ 15 ∧ rdHi ≠ rdLo ∧ rdHi ≠ rm ∧ rdLo ≠ rm

end Sys2Proof.Machine
end

