-- ==== Sys2Proof/Certificates/Slice0/Obligations.lean ====
section
/-! DEFINITION. The statements for the provers, from the numbered rules of spec/. -/

open Sys2Proof Sys2Proof.Machine

/-- Decoding the encoding of a well-formed instruction gives the instruction back. Decoding the encoding of any
well-formed instruction, ARM or Thumb, gives the instruction back with every operand. From 30_encoding.md R91, R95
to R111. -/
def Obligations.DecodeEncodeRoundTrip : Prop :=
  ∀ i : Instr, i.wellFormed = true → decode (encode i) = .ok i

/-- What the decoder accepts is well formed and encodes to the code it was read from. Every word or halfword the
decoder accepts is the encoding of the instruction it gives, which is well formed: no two codes give one
instruction, and no bit of an accepted code is ignored. From 30_encoding.md R91, R95 to R111, R117, R118. -/
def Obligations.DecodedCodeEncodesBack : Prop :=
  ∀ (x : Code) (i : Instr), decode x = .ok i → encode i = x ∧ i.wellFormed = true

/-- Some words of the spec decode to the instructions they stand for. Words the spec writes out, of five families,
decode to the instructions it names (a sanity check on fixed words). From 40_arm_branch.md R131,
44_arm_load_store.md R205, 41_arm_data_processing.md R150, 45_arm_block_transfer.md R238, 49_thumb_branch.md R343.
-/
def Obligations.DecodedWords : Prop :=
  decode (.arm 0xEA000002#32) = .ok (.b .al 2) ∧
  decode (.arm 0xE0110002#32) = .ok (.andShImm .al true 1 0 0 .lsl 2) ∧
  decode (.arm 0xE7110102#32) = .ok (.ldrReg .al false false 1 0 2 .lsl 2) ∧
  decode (.arm 0xE92D4010#32) = .ok (.stm1 .al true false true 13 0x4010) ∧
  decode (.thumb 0xDF05#16) = .ok (.tSwi 5)

/-- A code that encodes no instruction, condition 1111 among them, is refused by the step. When nothing comes before
the instruction at cur and it lies outside the prefetch window: a word or halfword at which the decoder gives an
error e is refused as undecodable with e; one that is the encoding of no well-formed instruction (the unallocated
words, the SBZ and SBO violations, the unallocated Thumb halfwords) is refused as undecodable; and an ARM word whose
bits 31:28 are 1111 is refused for its condition. From 30_encoding.md R94, R117, R118, R125, 92_eei_decisions.md
D10, D15. -/
def Obligations.ConditionNeverRefused : Prop :=
  ∀ s : State, undisturbed s → s.inWindow = false →
    (∀ e, decode (codeIn s.mem s) = .error e → step s = .refused (.undecodable e)) ∧
    ((∀ i : Instr, i.wellFormed = true → encode i ≠ codeIn s.mem s) → ∃ e, step s = .refused (.undecodable e)) ∧
    (s.cpsr.t = false → (s.readWord s.cur).extractLsb' 28 4 = 15 → step s = .refused (.undecodable .conditionNever))

/-- A step runs the instruction that the bytes at cur decode to. When no line interrupts, the mode is legal, the
fetch is granted, the bytes at cur are outside the prefetch window and decode to i, and i does not touch a banked
register right after a User-bank transfer, then step is exec of i at the state it starts from: s with the lines of
this step past. From 60_exceptions.md R372, 30_encoding.md R90, 20_memory.md R65. -/
def Obligations.StepRunsDecodedInstruction : Prop :=
  ∀ (s : State) (i : Instr), undisturbed s → s.inWindow = false → decode (codeIn s.mem s) = .ok i →
    (s.afterUserBank && touchesBanked i s) = false → step s = exec i (startOf s)

/-- An instruction stored into by the last two is fetched new or old (model choice, log 15). The model's choice of
log 15, the draw that R81 allows: an instruction in bytes stored by one of the two instructions before it, with no
pc write in between, is the one that memory holds now, or held before the last instruction, or before the last two;
which of them, nothing says. If that one does not decode, the step is refused with the decoder's error; if it
touches a banked register right after a User-bank transfer, it is refused; else it runs from the state it starts
from with one draw counted. From 20_memory.md R81, 70_reset_and_hazards.md R414, 92_eei_decisions.md D13. -/
def Obligations.PrefetchWindowChoice : Prop :=
  ∀ s : State, undisturbed s → s.inWindow = true →
    ∃ m, (m = s.mem ∨ m = undone s.recentStores s.mem ∨
        m = undone s.olderStores (undone s.recentStores s.mem)) ∧
      (∀ e, decode (codeIn m s) = .error e → step s = .refused (.undecodable e)) ∧
      ∀ i, decode (codeIn m s) = .ok i →
        ((s.afterUserBank && touchesBanked i s) = true → step s = .refused .bankedAfterUserBank) ∧
        ((s.afterUserBank && touchesBanked i s) = false →
          step s = exec i { startOf s with draws := s.draws + 1 })

/-- A step takes reset, FIQ, IRQ and prefetch abort in order, and where it stops before any instruction. Reset comes
before everything. Else an illegal mode is a fault; else a run past the top of the address space is refused; else
FIQ is taken if asserted with F = 0; else IRQ if asserted with I = 0; else an aborted fetch raises Prefetch Abort
and a fetch at which nothing is mapped is a fault. The lines of the step are past in the state each gives. The order
of reset, FIQ, IRQ and Prefetch Abort is R370's and R372's; that the stops come where they do is the model's choice
(log 27; what each stop stands for: logs 8, 17, 21). From 60_exceptions.md R370, R372, 70_reset_and_hazards.md R400,
10_state.md R34, R45, 20_memory.md R70, 92_eei_decisions.md D5, D17, D20. -/
def Obligations.StepTakesExceptionsInOrder : Prop :=
  ∀ s : State,
    let t : State := { s with lines := s.lines.tail }
    (s.linesNow.reset = true → step s = .next (takeReset t)) ∧
    (s.linesNow.reset = false →
      (modeOfBits s.cpsr.m = none → step s = .fault .illegalMode) ∧
      (modeOfBits s.cpsr.m ≠ none → s.pastTop = true → step s = .refused .pastTop) ∧
      (modeOfBits s.cpsr.m ≠ none → s.pastTop = false →
        (s.linesNow.fiq = true ∧ s.cpsr.f = false → step s = .next (takeFiq t)) ∧
        (¬ (s.linesNow.fiq = true ∧ s.cpsr.f = false) →
          (s.linesNow.irq = true ∧ s.cpsr.i = false → step s = .next (takeIrq t)) ∧
          (¬ (s.linesNow.irq = true ∧ s.cpsr.i = false) →
            (s.access .fetch s.privilege s.cur s.size = .aborted → step s = .next (takePrefetchAbort t)) ∧
            (s.access .fetch s.privilege s.cur s.size = .unmapped → step s = .fault .unmapped)))))

/-- With I set an IRQ, and with F set an FIQ, makes no difference to a step. With the F bit set a step with the FIQ
line asserted is the step with it not asserted; with the I bit set the same holds of IRQ. The other lines and the
rest of the state are arbitrary. From R42. -/
def Obligations.MaskedInterruptsNotTaken : Prop :=
  ∀ (s : State) (reset line : Bool) (rest : List Lines),
    (s.cpsr.f = true → step { s with lines := ⟨reset, true, line⟩ :: rest } =
      step { s with lines := ⟨reset, false, line⟩ :: rest }) ∧
    (s.cpsr.i = true → step { s with lines := ⟨reset, line, true⟩ :: rest } =
      step { s with lines := ⟨reset, line, false⟩ :: rest })

/-- A banked register named or written right after LDM (2) or STM (2) is refused. When the instruction before was a
User-bank transfer: a step whose instruction passes its condition and names r13, r14 or, in FIQ mode, one of r8 to
r12 of the current mode is refused by name; and so is one that would write r14 of the current mode by its own
exception: SWI in Supervisor mode, an undefined instruction in Undefined mode. (A coprocessor instruction names its
register when it is accepted; how the hazard is read here is log 16.) From 45_arm_block_transfer.md R244,
70_reset_and_hazards.md R413, 46_arm_swap_swi_coproc.md R250, R258. -/
def Obligations.HazardRefusal : Prop :=
  ∀ (s : State) (i : Instr) (c : Cond), undisturbed s → s.inWindow = false → s.afterUserBank = true →
    decode (codeIn s.mem s) = .ok i → condHolds c s.cpsr = true →
    (∀ (rs : List Reg) (r : Reg), namedRegisters i s = some (c, rs) → r ∈ rs →
      (r = 13 ∨ r = 14 ∨ (s.mode = .fiq ∧ 8 ≤ r.toNat ∧ r.toNat ≤ 12)) → step s = .refused .bankedAfterUserBank) ∧
    (∀ n, i = .swi c n → s.mode = .svc → step s = .refused .bankedAfterUserBank) ∧
    (∀ hi lo, i = .undefined c hi lo → s.mode = .und → step s = .refused .bankedAfterUserBank)

/-- What reset leaves, and that it satisfies the invariant. After reset the pc is 0, the mode is Supervisor, I and F
are 1, T is 0, and the state is safe: a legal mode, an aligned pc, memory in its canonical form, no instruction half
executed. (The values the model names for what the spec leaves unspecified are logs 1 to 4; the statement says none
of them.) From 10_state.md R59, 70_reset_and_hazards.md R400, R401. -/
def Obligations.ResetState : Prop :=
  State.reset.cur = 0 ∧ State.reset.cpsr.m = 0b10011 ∧ State.reset.mode = .svc ∧ State.reset.cpsr.i = true ∧
  State.reset.cpsr.f = true ∧ State.reset.cpsr.t = false ∧ State.reset.inv = true

/-- Every step keeps a legal mode, an aligned pc and memory in canonical form. From any state with one of the seven
modes, a pc aligned for the current state, memory in canonical form and no store of an unfinished instruction on
record, whatever the instruction, lines, platform and coprocessors, a step that gives a next state gives such a
state. From 10_state.md R30, R33, R44, R45, 20_memory.md R75. -/
def Obligations.InvariantKeptByStep : Prop :=
  ∀ s t : State, s.inv = true → step s = .next t → t.inv = true

/-- No step changes the platform, and each step uses up one sample of the lines. The byte order, the PC store
offset, the coprocessors present, the aborts and the memory map are constant for a run; the input lines are sampled
once a step. That the byte order and the PC store offset are constant is R9 and R60; that the aborts and the memory
map are constant for a run, and that the lines are a list of samples, is the choice of this model and no rule of the
spec (logs 7, 8 and 9; the coprocessors: log 10). From 00_scope.md R9, 20_memory.md R60, 60_exceptions.md R371,
R372. -/
def Obligations.PlatformKeptByStep : Prop :=
  ∀ s t : State, step s = .next t → t.plat = s.plat ∧ t.lines = s.lines.tail

/-- From User mode a step changes no other bank, SPSR, mode, I, F or reserved bit unless an exception is entered. A
step from User mode either stays in User mode with I, F, the reserved bits, every register of another bank and every
SPSR as they were (of T, the control bit left, nothing is said: BX changes it in User mode), or is the entry of one
exception: its mode, its vector, ARM state, I set, the old CPSR in the SPSR of the new mode unless it is reset, and
of the other banks only r14 of the new mode changed. From 10_state.md R24, R49, 42_arm_psr_transfer.md R186,
46_arm_swap_swi_coproc.md R250, 60_exceptions.md R356. -/
def Obligations.UserModeConfined : Prop :=
  ∀ s t : State, s.cpsr.m = 0b10000 → step s = .next t →
    (t.cpsr.m = 0b10000 ∧ t.cpsr.i = s.cpsr.i ∧ t.cpsr.f = s.cpsr.f ∧ t.cpsr.reserved = s.cpsr.reserved ∧
      (∀ k : Fin 30, 15 ≤ k.val → t.regs[k] = s.regs[k]) ∧ spsrsKept s t) ∨
    (∃ e : Exception, t.cpsr.m = e.mode.bits ∧ t.cur = e.vector ∧ t.cpsr.t = false ∧ t.cpsr.i = true ∧
      (∀ k : Fin 30, 15 ≤ k.val → k ≠ regIndex e.mode 14 → t.regs[k] = s.regs[k]) ∧
      (e ≠ .reset → t.spsrOf e.mode = some s.cpsr) ∧ ∀ m, m ≠ e.mode → t.spsrOf m = s.spsrOf m)

/-- With the reset line asserted a step performs the reset sequence and nothing else. M is 10011, I and F are 1, T
is 0, the pc is 0, nothing counts as prefetched or stored lately and no User-bank transfer is in progress; N, Z, C,
V, the reserved bits, every register but r14_svc, every SPSR but SPSR_svc and memory keep their values; r14_svc and
SPSR_svc are not said. That no User-bank transfer is in progress after it is the choice of this model and no rule of
the spec (logs 14 and 16). From 70_reset_and_hazards.md R400, R403, 10_state.md R59. -/
def Obligations.ResetLineEffect : Prop :=
  ∀ s : State, s.linesNow.reset = true → ∃ t, step s = .next t ∧
    t.cpsr = { s.cpsr with m := 0b10011, i := true, f := true, t := false } ∧ wentTo 0 t ∧
    regsKeptBut [regIndex .svc 14] s t ∧ (∀ m, m ≠ .svc → t.spsrOf m = s.spsrOf m) ∧ bytesKept s t ∧
    t.plat = s.plat ∧ t.lines = s.lines.tail ∧ t.replies = s.replies ∧ t.sent = s.sent

/-- Each exception is entered with the mode, vector, masks and return value of the tables. For each exception but
reset: r14 of the new mode takes the return value, its SPSR the whole old CPSR; M is the new mode, T is 0, I is 1, F
is set by FIQ alone; the pc is the vector; no store is left on record (R81); every other register, every other SPSR,
the flags, the reserved bits, memory and the outside are kept. From 60_exceptions.md R356, R358, R360, R361, R366,
R367, R368, R369. -/
def Obligations.ExceptionEntries : Prop :=
  ∀ s : State,
    let next : Word := s.cur + (if s.cpsr.t then 2 else 4)
    entered .und 0b11011 0x04 false next s (takeUndefined s) ∧
    entered .svc 0b10011 0x08 false next s (takeSwi s) ∧
    entered .abt 0b10111 0x0C false (s.cur + 4) s (takePrefetchAbort s) ∧
    entered .abt 0b10111 0x10 false (s.cur + 8) s (takeDataAbort s) ∧
    entered .irq 0b10010 0x18 false (s.cur + 4) s (takeIrq s) ∧
    entered .fiq 0b10001 0x1C true (s.cur + 4) s (takeFiq s)

/-- A return restores the CPSR from the SPSR and the pc as the restored T says. In User and System mode, which have
no SPSR, it is refused; with an illegal mode in the SPSR it is a fault, whatever the target (the choice of this
model, log 27); else the CPSR becomes the SPSR and the pc the target, bit 0 ignored in Thumb state; in ARM state a
target with bits 1:0 not 00 is refused. Registers, SPSRs and memory are kept, and no store is left on record. From
60_exceptions.md R376, 41_arm_data_processing.md R149, 10_state.md R45, R47. -/
def Obligations.ExceptionReturnEffect : Prop :=
  ∀ (a : Word) (s : State),
    (s.mode = .usr ∨ s.mode = .sys → exceptionReturn a s = .refused .noSpsr) ∧
    ∀ p, s.spsrOf s.mode = some p →
      (modeOfBits p.m = none → exceptionReturn a s = .fault .illegalMode) ∧
      (modeOfBits p.m ≠ none → p.t = false → a.toNat % 4 ≠ 0 → exceptionReturn a s = .refused .pcMisaligned) ∧
      (modeOfBits p.m ≠ none → (p.t = true ∨ a.toNat % 4 = 0) → ∃ t, exceptionReturn a s = .next t ∧
        t.cpsr = p ∧ wentTo (if p.t then lowOneCleared a else a) t ∧ regsKeptBut [] s t ∧ spsrsKept s t ∧
        bytesKept s t ∧ outsideKept s t)

/-- The return instruction of each exception restores the status and resumes where the spec says. From a safe state,
right after the entry: MOVS pc, r14 after SWI and Undefined Instruction resumes at the next instruction; SUBS pc,
r14, #4 after Prefetch Abort, IRQ and FIQ, and SUBS pc, r14, #8 after Data Abort, resume at the same one; the CPSR
is what it was, in ARM and in Thumb state; only r14 of the mode left differs, and memory is as it was. From
60_exceptions.md R361, R375, R376, 41_arm_data_processing.md R149. -/
def Obligations.ReturnInstructionsResume : Prop :=
  ∀ s : State, s.inv = true →
    let movs : Instr := .movShImm .al true 15 0 .lsl 14
    let subs : BitVec 8 → Instr := fun n => .subImm .al true 14 15 0 n
    let resumes : Instr → Mode → State → Word → Prop := fun i m u a =>
      ∃ t, exec i u = .next t ∧ t.cpsr = s.cpsr ∧ wentTo a t ∧ regsKeptBut [regIndex m 14] s t ∧ bytesKept s t
    let following : Word := s.cur + (if s.cpsr.t then 2 else 4)
    resumes movs .svc (takeSwi s) following ∧ resumes movs .und (takeUndefined s) following ∧
    resumes (subs 4) .abt (takePrefetchAbort s) s.cur ∧ resumes (subs 4) .irq (takeIrq s) s.cur ∧
    resumes (subs 4) .fiq (takeFiq s) s.cur ∧ resumes (subs 8) .abt (takeDataAbort s) s.cur

/-- SWI enters Supervisor mode, the undefined instructions Undefined mode. swi, undefined (their condition passed),
tSwi, tUndefined and tUndefinedSpace take their exception: the instruction has no other effect. Right after a
User-bank transfer one that would enter the mode it is in, and so write r14 of that mode, is refused (R244, log 16).
That the halfwords of tUndefinedSpace (0xE800 to 0xEFFF and the unallocated 0xBxxx) trap is the choice of this model
(log 20): R351 and D15 let a model trap or refuse. From 46_arm_swap_swi_coproc.md R250, R258, 49_thumb_branch.md
R343, R351, 60_exceptions.md R360, R364, 45_arm_block_transfer.md R244. -/
def Obligations.SwiAndUndefined : Prop :=
  ∀ (c : Cond) (n24 : BitVec 24) (hi : BitVec 20) (lo : BitVec 4) (n8 : BitVec 8) (h : Half) (s : State),
    let next : Word := s.cur + (if s.cpsr.t then 2 else 4)
    let takes : Mode → (State → Prop) → Instr → Prop := fun m takenTo i =>
      (¬ ownBank m s → ∃ t, exec i s = .next t ∧ takenTo t ∧ t.afterUserBank = false) ∧
      (ownBank m s → exec i s = .refused .bankedAfterUserBank)
    let swiTaken := takes .svc (entered .svc 0b10011 0x08 false next s)
    let undTaken := takes .und (entered .und 0b11011 0x04 false next s)
    (condHolds c s.cpsr = true → swiTaken (.swi c n24) ∧ undTaken (.undefined c hi lo)) ∧
    swiTaken (.tSwi n8) ∧ undTaken (.tUndefined n8) ∧ undTaken (.tUndefinedSpace h)

/-- An ARM instruction whose condition fails only advances the pc. Every ARM instruction (every instruction with a
condition field, loads, stores, status transfers, SWI, coprocessor and undefined instructions among them) answers a
next state when its condition fails. No other register of any bank, flag, SPSR or control bit and no byte of memory
changes. From 30_encoding.md R92, R93, 40_arm_branch.md R130. -/
def Obligations.FailedConditionOnlyAdvances : Prop :=
  ∀ (i : Instr) (c : Cond) (rs : List Reg) (s : State), namedRegisters i s = some (c, rs) →
    condHolds c s.cpsr = false → ∃ t, exec i s = .next t ∧ onlyAdvanced s t

/-- r15 reads as the address of the instruction plus 8, or plus 4 in Thumb state. The value every operand read of
r15 gives. From 10_state.md R31, 41_arm_data_processing.md R144, 70_reset_and_hazards.md R411. -/
def Obligations.ReadsOfPc : Prop :=
  ∀ s : State, s.readReg 15 = s.cur + (if s.cpsr.t then 4 else 8)

/-- The sixteen data-processing operations with an immediate operand. andImm, eorImm, subImm, rsbImm, addImm,
adcImm, sbcImm, rscImm, tstImm, teqImm, cmpImm, cmnImm, orrImm, movImm, bicImm, mvnImm, their condition passed and
their destination not r15, complete: the result in Rd (none for a compare), N, Z, C, V as the rules give them if S =
1 or for a compare, C from bit 31 of a rotated immediate for a logical operation. No other register of any bank,
flag, SPSR or control bit and no byte of memory changes. From 41_arm_data_processing.md R141, R146, R147, R150 to
R165. -/
def Obligations.DataImmediateEffect : Prop :=
  ∀ (op : AluOp) (c : Cond) (f : Bool) (rn rd : Reg) (rot : BitVec 4) (imm : BitVec 8) (s : State) (v : Word),
    condHolds c s.cpsr = true → (op.compares = true ∨ rd ≠ 15) →
    v = (imm.setWidth 32).rotateRight (2 * rot.toNat) →
    ∃ t, exec (Instr.dpImm op c f rn rd rot imm) s = .next t ∧
      dataEffect op f rd (s.readReg rn) ⟨v, if rot = 0 then none else some v.msb⟩ s t

/-- The sixteen data-processing operations with a register shifted by an immediate. andShImm, eorShImm, subShImm,
rsbShImm, addShImm, adcShImm, sbcShImm, rscShImm, tstShImm, teqShImm, cmpShImm, cmnShImm, orrShImm, movShImm,
bicShImm, mvnShImm, their condition passed and their destination not r15 (r15 as an operand is allowed), complete:
the result in Rd, the flags as the rules give them. No other register of any bank, flag, SPSR or control bit and no
byte of memory changes. From 41_arm_data_processing.md R142, R144, R146, R147, R150 to R165. -/
def Obligations.DataShiftImmediateEffect : Prop :=
  ∀ (op : AluOp) (c : Cond) (f : Bool) (rn rd : Reg) (n : BitVec 5) (sh : Shift) (rm : Reg) (s : State),
    condHolds c s.cpsr = true → (op.compares = true ∨ rd ≠ 15) →
    ∃ t, exec (Instr.dpShImm op c f rn rd n sh rm) s = .next t ∧
      dataEffect op f rd (s.readReg rn) (shiftByImmediate sh (s.readReg rm) n s.cpsr.c) s t

/-- The sixteen data-processing operations with a register shifted by a register. andShReg, eorShReg, subShReg,
rsbShReg, addShReg, adcShReg, sbcShReg, rscShReg, tstShReg, teqShReg, cmpShReg, cmnShReg, orrShReg, movShReg,
bicShReg, mvnShReg, their condition passed and no register r15, complete: the result in Rd, the flags as the rules
give them. No other register of any bank, flag, SPSR or control bit and no byte of memory changes. From
41_arm_data_processing.md R143, R145, R146, R147, R150 to R165. -/
def Obligations.DataShiftRegisterEffect : Prop :=
  ∀ (op : AluOp) (c : Cond) (f : Bool) (rn rd rs : Reg) (sh : Shift) (rm : Reg) (s : State),
    condHolds c s.cpsr = true → (op.compares = true ∨ rd ≠ 15) → (op.moves = true ∨ rn ≠ 15) → rs ≠ 15 →
    rm ≠ 15 → ∃ t, exec (Instr.dpShReg op c f rn rd rs sh rm) s = .next t ∧
      dataEffect op f rd (s.readReg rn) (shiftByRegister sh (s.readReg rm) (s.readReg rs)) s t

/-- The results and carry-outs of a register shifted by an immediate, 0 and RRX included. Each row of the table of
R142, in arithmetic on the value m: LSL 0 is m with the carry unchanged, LSR 0 and ASR 0 are shifts by 32, ROR 0 is
RRX with the old carry in bit 31. From 41_arm_data_processing.md R142. -/
def Obligations.ShiftImmediateTable : Prop :=
  ∀ (m : Word) (n : BitVec 5) (c : Bool),
    let r : Shift → Shifted := fun sh => shiftByImmediate sh m n c
    (n = 0 →
      r .lsl = ⟨m, none⟩ ∧ r .lsr = ⟨0, some m.msb⟩ ∧
      r .asr = ⟨if m.msb then 0xFFFFFFFF else 0, some m.msb⟩ ∧
      (r .ror).carry = some (m.getLsbD 0) ∧ (r .ror).value.getLsbD 31 = c ∧
      ∀ k, k < 31 → (r .ror).value.getLsbD k = m.getLsbD (k + 1)) ∧
    (n ≠ 0 →
      (r .lsl).value.toNat = m.toNat * 2 ^ n.toNat % 2 ^ 32 ∧ (r .lsl).carry = some (m.getLsbD (32 - n.toNat)) ∧
      (r .lsr).value.toNat = m.toNat / 2 ^ n.toNat ∧ (r .lsr).carry = some (m.getLsbD (n.toNat - 1)) ∧
      (r .asr).value.toInt = m.toInt / 2 ^ n.toNat ∧ (r .asr).carry = some (m.getLsbD (n.toNat - 1)) ∧
      (∀ k, k < 32 → (r .ror).value.getLsbD k = m.getLsbD ((k + n.toNat) % 32)) ∧
      (r .ror).carry = some (m.getLsbD (n.toNat - 1)))

/-- The results and carry-outs of a register shifted by a register, amounts 0 to 255. Each row of the table of R143,
in arithmetic: the amount is the low byte of Rs, and amounts of 32 and above are shifts of every bit out. From
41_arm_data_processing.md R143. -/
def Obligations.ShiftRegisterTable : Prop :=
  ∀ (m rs : Word) (n : Nat), n = rs.toNat % 256 →
    let r : Shift → Shifted := fun sh => shiftByRegister sh m rs
    (n = 0 → ∀ sh, r sh = ⟨m, none⟩) ∧
    (1 ≤ n → n ≤ 31 →
      (r .lsl).value.toNat = m.toNat * 2 ^ n % 2 ^ 32 ∧ (r .lsl).carry = some (m.getLsbD (32 - n)) ∧
      (r .lsr).value.toNat = m.toNat / 2 ^ n ∧ (r .lsr).carry = some (m.getLsbD (n - 1)) ∧
      (r .asr).value.toInt = m.toInt / 2 ^ n ∧ (r .asr).carry = some (m.getLsbD (n - 1))) ∧
    (n = 32 → r .lsl = ⟨0, some (m.getLsbD 0)⟩ ∧ r .lsr = ⟨0, some m.msb⟩) ∧
    (33 ≤ n → r .lsl = ⟨0, some false⟩ ∧ r .lsr = ⟨0, some false⟩) ∧
    (32 ≤ n → r .asr = ⟨if m.msb then 0xFFFFFFFF else 0, some m.msb⟩) ∧
    (n ≠ 0 → n % 32 = 0 → r .ror = ⟨m, some m.msb⟩) ∧
    (n % 32 ≠ 0 → (∀ k, k < 32 → (r .ror).value.getLsbD k = m.getLsbD ((k + n) % 32)) ∧
      (r .ror).carry = some (m.getLsbD (n % 32 - 1)))

/-- A data-processing instruction with Rd = 15 and S = 0 is a jump. For the twelve operations that write Rd,
immediate or immediate-shift operand, condition passed: the result is the new pc if its bits 1:0 are 00, the state
stays what it is and no flag changes; else the instruction is refused. No other register of any bank, flag, SPSR or
control bit and no byte of memory changes. From R148. -/
def Obligations.DataPcJump : Prop :=
  ∀ (i : Instr) (op : AluOp) (c : Cond) (rn : Reg) (o : Shifted) (s : State), condHolds c s.cpsr = true →
    op.compares = false → dataToPc i op c false rn o s →
    let r := specResult op (s.readReg rn) o.value s.cpsr.c
    (r.toNat % 4 = 0 → ∃ t, exec i s = .next t ∧ jumped r s t) ∧
    (r.toNat % 4 ≠ 0 → exec i s = .refused .pcMisaligned)

/-- A data-processing instruction with Rd = 15 and S = 1 returns from an exception to its result. For the twelve
operations that write Rd, immediate or immediate-shift operand, condition passed: the instruction is the exception
return (see ExceptionReturnEffect) to the result of the operation, whose flags are not set. From
41_arm_data_processing.md R149. -/
def Obligations.DataPcReturn : Prop :=
  ∀ (i : Instr) (op : AluOp) (c : Cond) (rn : Reg) (o : Shifted) (s : State), condHolds c s.cpsr = true →
    op.compares = false → dataToPc i op c true rn o s →
    exec i s = exceptionReturn (specResult op (s.readReg rn) o.value s.cpsr.c) s

/-- r15 anywhere in the register-shift layout is refused. With the condition passed, any of Rd, Rn, Rm, Rs that the
operation has being r15 makes a data-processing instruction with a register-specified shift refused. From R145. -/
def Obligations.RegisterShiftPcRefused : Prop :=
  ∀ (op : AluOp) (c : Cond) (f : Bool) (rn rd rs : Reg) (sh : Shift) (rm : Reg) (s : State),
    condHolds c s.cpsr = true →
    ((op.compares = false ∧ rd = 15) ∨ (op.moves = false ∧ rn = 15) ∨ rm = 15 ∨ rs = 15) →
    exec (Instr.dpShReg op c f rn rd rs sh rm) s = .refused .pcOperand

/-- After CMP the conditions decide equality and the unsigned and signed orders. After cmpShImm on two registers a
and b: EQ is a = b, NE is not, CS is unsigned a >= b, CC a < b, HI a > b, LS a <= b; GE is signed a >= b, LT a < b,
GT a > b, LE a <= b. From 41_arm_data_processing.md R160, R166, 30_encoding.md R93. -/
def Obligations.CompareDecidesOrder : Prop :=
  ∀ (c : Cond) (rn rm : Reg) (s : State), condHolds c s.cpsr = true →
    let a := s.readReg rn
    let b := s.readReg rm
    ∃ t, exec (.cmpShImm c rn 0 .lsl rm) s = .next t ∧
      condHolds .eq t.cpsr = decide (a = b) ∧ condHolds .ne t.cpsr = decide (a ≠ b) ∧
      condHolds .cs t.cpsr = decide (b.toNat ≤ a.toNat) ∧ condHolds .cc t.cpsr = decide (a.toNat < b.toNat) ∧
      condHolds .hi t.cpsr = decide (b.toNat < a.toNat) ∧ condHolds .ls t.cpsr = decide (a.toNat ≤ b.toNat) ∧
      condHolds .ge t.cpsr = decide (b.toInt ≤ a.toInt) ∧ condHolds .lt t.cpsr = decide (a.toInt < b.toInt) ∧
      condHolds .gt t.cpsr = decide (b.toInt < a.toInt) ∧ condHolds .le t.cpsr = decide (a.toInt ≤ b.toInt)

/-- MRS writes the CPSR or the SPSR of the mode to Rd, bits 27:8 open. mrs, condition passed, Rd not r15, and for
the SPSR in a mode that has one, completes: Rd shows N, Z, C, V, I, F, T and M of the status register; its bits 27:8
are not said (D16). No flag, no other register and no memory changes. From 42_arm_psr_transfer.md R181, 10_state.md
R40, R46. -/
def Obligations.MrsEffect : Prop :=
  ∀ (c : Cond) (fromSpsr : Bool) (rd : Reg) (p : Psr) (s : State), condHolds c s.cpsr = true → rd ≠ 15 →
    (if fromSpsr then s.spsrOf s.mode = some p else p = s.cpsr) →
    ∃ t, exec (.mrs c fromSpsr rd) s = .next t ∧ showsStatus p (t.readReg rd) ∧
      regsKeptBut [regIndex s.mode rd] s t ∧ flagsKept s t ∧ bytesKept s t ∧ restKept s t ∧ inSequence s t

/-- In User mode MSR to the CPSR changes only the flags. msrReg and msrImm to the CPSR in User mode complete
whatever the mask: with the f field selected N, Z, C, V come from the operand, else they are kept; I, F, T, M and
the reserved bits are as they were, and no exception is raised. No register and no memory changes. From R49. -/
def Obligations.MsrUserMode : Prop :=
  ∀ (i : Instr) (c : Cond) (mask : BitVec 4) (v : Word) (s : State), s.mode = .usr → condHolds c s.cpsr = true →
    isMsr i c false mask v s → ∃ t, exec i s = .next t ∧ flagFieldOf (mask.getLsbD 3) v s.cpsr t.cpsr ∧
      regsKeptBut [] s t ∧ bytesKept s t ∧ restKept s t ∧ inSequence s t

/-- In a privileged mode MSR writes the selected fields of the CPSR or of the SPSR. msrReg and msrImm: to the CPSR
in a privileged mode, the c field not selected or an operand that keeps T and holds a legal mode; or to the SPSR of
a mode that has one, any operand. The f field writes N, Z, C, V, the c field I, F, T, M; the reserved bits are kept.
No register and no memory changes. From 42_arm_psr_transfer.md R182, R184, R185, R186, 10_state.md R46. -/
def Obligations.MsrPrivilegedMode : Prop :=
  ∀ (i : Instr) (c : Cond) (mask : BitVec 4) (v : Word) (s : State), condHolds c s.cpsr = true →
    (isMsr i c false mask v s → s.mode ≠ .usr →
      (mask.getLsbD 0 = true → v.getLsbD 5 = s.cpsr.t ∧ modeOfBits (v.extractLsb' 0 5) ≠ none) →
      ∃ t, exec i s = .next t ∧ flagFieldOf (mask.getLsbD 3) v s.cpsr t.cpsr ∧
        controlFieldOf (mask.getLsbD 0) v s.cpsr t.cpsr ∧ t.cpsr.reserved = s.cpsr.reserved ∧
        regsKeptBut [] s t ∧ spsrsKept s t ∧ bytesKept s t ∧ outsideKept s t ∧ inSequence s t) ∧
    (∀ p, isMsr i c true mask v s → s.spsrOf s.mode = some p →
      ∃ t q, exec i s = .next t ∧ t.spsrOf s.mode = some q ∧ flagFieldOf (mask.getLsbD 3) v p q ∧
        controlFieldOf (mask.getLsbD 0) v p q ∧ q.reserved = p.reserved ∧
        (∀ m, m ≠ s.mode → t.spsrOf m = s.spsrOf m) ∧ t.cpsr = s.cpsr ∧ regsKeptBut [] s t ∧
        bytesKept s t ∧ outsideKept s t ∧ inSequence s t)

/-- Where MRS and MSR stop: r15, no SPSR, a change of T, an illegal mode. With the condition passed: Rd or Rm = 15
is refused; the SPSR in User or System mode is refused; in a privileged mode an operand of the c field that would
change T is refused, and one that keeps T with an illegal mode is a fault. That one which does both, change T and
hold an illegal mode, is refused and is no fault is the choice of this model (log 27): the spec gives no order. From
42_arm_psr_transfer.md R181, R182, R185, R186, 10_state.md R43, R45, R47. -/
def Obligations.StatusTransferStops : Prop :=
  ∀ (i : Instr) (c : Cond) (mask : BitVec 4) (toSpsr : Bool) (rd : Reg) (v : Word) (s : State),
    condHolds c s.cpsr = true →
    exec (.mrs c toSpsr 15) s = .refused .pcOperand ∧ exec (.msrReg c toSpsr mask 15) s = .refused .pcOperand ∧
    (s.mode = .usr ∨ s.mode = .sys →
      (rd ≠ 15 → exec (.mrs c true rd) s = .refused .noSpsr) ∧
      (isMsr i c true mask v s → exec i s = .refused .noSpsr)) ∧
    (isMsr i c false mask v s → s.mode ≠ .usr → mask.getLsbD 0 = true →
      (v.getLsbD 5 ≠ s.cpsr.t → exec i s = .refused .forcesT) ∧
      (v.getLsbD 5 = s.cpsr.t → modeOfBits (v.extractLsb' 0 5) = none → exec i s = .fault .illegalMode))

/-- MUL, MLA and the Thumb MUL give the product modulo 2^32. mul, mla and tMul on registers their rules allow
complete: the product (plus Rn for MLA) modulo 2^32 in Rd; with S = 1, and always in Thumb, N and Z of the result, V
kept, C open (D18). No other register, no memory, nothing of the rest changes. From 43_arm_multiply.md R190, R191,
R192, 47_thumb_alu.md R293. -/
def Obligations.MultiplyEffect : Prop :=
  ∀ (c : Cond) (f : Bool) (rd rn rs rm : Reg) (s : State), condHolds c s.cpsr = true → rd ≠ 15 → rs ≠ 15 →
    rm ≠ 15 → rd ≠ rm →
    let p : Nat := (s.readReg rm).toNat * (s.readReg rs).toNat
    (∃ t, exec (.mul c f rd rs rm) s = .next t ∧ multiplied f rd (BitVec.ofNat 32 p) s t) ∧
    (rn ≠ 15 → ∃ t, exec (.mla c f rd rn rs rm) s = .next t ∧
      multiplied f rd (BitVec.ofNat 32 (p + (s.readReg rn).toNat)) s t) ∧
    ∀ ls ld : LowReg, ls ≠ ld → ∃ t, exec (.tMul ls ld) s = .next t ∧ multiplied true (lowReg ld)
      (BitVec.ofNat 32 ((s.readReg (lowReg ld)).toNat * (s.readReg (lowReg ls)).toNat)) s t

/-- The long multiplies give the exact signed or unsigned product modulo 2^64. umull, umlal, smull, smlal on
registers their rules allow complete: RdHi : RdLo is the exact product, plus the old RdHi : RdLo for the
accumulating forms, modulo 2^64; with S = 1 N and Z of the 64 bits, C and V open (D18). No other register, no
memory, nothing of the rest changes. From 43_arm_multiply.md R193, R194, R195, R196, R197, R198. -/
def Obligations.LongMultiplyEffect : Prop :=
  ∀ (c : Cond) (f : Bool) (rdHi rdLo rs rm : Reg) (s : State), condHolds c s.cpsr = true →
    longAllowed rdHi rdLo rs rm →
    let a := s.readReg rm
    let b := s.readReg rs
    let acc : BitVec 64 := s.readReg rdHi ++ s.readReg rdLo
    let gives : Instr → BitVec 64 → Prop := fun i v => ∃ t, exec i s = .next t ∧ longMultiplied f rdHi rdLo v s t
    gives (.umull c f rdHi rdLo rs rm) (BitVec.ofNat 64 (a.toNat * b.toNat)) ∧
    gives (.umlal c f rdHi rdLo rs rm) (BitVec.ofNat 64 (a.toNat * b.toNat + acc.toNat)) ∧
    gives (.smull c f rdHi rdLo rs rm) (BitVec.ofInt 64 (a.toInt * b.toInt)) ∧
    gives (.smlal c f rdHi rdLo rs rm) (BitVec.ofInt 64 (a.toInt * b.toInt + acc.toInt))

/-- r15 and the forbidden equal registers of the multiplies are refused. With the condition passed: r15 anywhere is
refused; without it, Rd = Rm in MUL and MLA, RdHi, RdLo and Rm not all different in the long multiplies, and Rd = Rs
in the Thumb MUL are refused. That r15 is looked at first is the choice of this model (log 27). From
43_arm_multiply.md R190, R191, R192, R193, 47_thumb_alu.md R293. -/
def Obligations.MultiplyRefusals : Prop :=
  ∀ (c : Cond) (f : Bool) (rd rn rs rm : Reg) (low : LowReg) (s : State), condHolds c s.cpsr = true →
    let long : Refusal → Prop := fun x => exec (.umull c f rd rn rs rm) s = .refused x ∧
      exec (.umlal c f rd rn rs rm) s = .refused x ∧ exec (.smull c f rd rn rs rm) s = .refused x ∧
      exec (.smlal c f rd rn rs rm) s = .refused x
    (rd = 15 ∨ rs = 15 ∨ rm = 15 → exec (.mul c f rd rs rm) s = .refused .pcOperand) ∧
    (rd = 15 ∨ rn = 15 ∨ rs = 15 ∨ rm = 15 → exec (.mla c f rd rn rs rm) s = .refused .pcOperand ∧ long .pcOperand) ∧
    (rd ≠ 15 → rn ≠ 15 → rs ≠ 15 → rm ≠ 15 →
      (rd = rm → exec (.mul c f rd rs rm) s = .refused .sameRegister ∧
        exec (.mla c f rd rn rs rm) s = .refused .sameRegister) ∧
      (rd = rn ∨ rd = rm ∨ rn = rm → long .sameRegister)) ∧
    exec (.tMul low low) s = .refused .sameRegister

/-- A word or halfword stored has its bytes where the byte order puts them, and reads back. For memory in canonical
form and an aligned address: byte a + k of a word is bits 8k+7:8k in little-endian format and bits 31-8k:24-8k in
big-endian format, likewise for a halfword; a read of the same width gives the value back; every other byte is as it
was. From 20_memory.md R61, R62, R63, R64. -/
def Obligations.StoredBytes : Prop :=
  ∀ (s : State) (a v : Word) (h : Half), s.mem.wf = true →
    (a.toNat % 4 = 0 → (s.writeWord a v).readWord a = v ∧ bytesKeptOutside a.toNat 4 s (s.writeWord a v) ∧
      ∀ k, k < 4 → (s.writeWord a v).readByte (a.toNat + k) =
        v.extractLsb' (if s.plat.bigEnd then 24 - 8 * k else 8 * k) 8) ∧
    (a.toNat % 2 = 0 → (s.writeHalf a h).readHalf a = h ∧ bytesKeptOutside a.toNat 2 s (s.writeHalf a h) ∧
      ∀ k, k < 2 → (s.writeHalf a h).readByte (a.toNat + k) =
        h.extractLsb' (if s.plat.bigEnd then 8 - 8 * k else 8 * k) 8)

/-- Every single load puts the value read in Rd and updates the base as its form says. ldr, ldrb in their Imm,
ImmPost, tImm, Reg, RegPost, tReg forms (ldrImm, ldrImmPost, ldrtImm, ldrReg, ldrRegPost, ldrtReg, ldrbImm,
ldrbImmPost, ldrbtImm, ldrbReg, ldrbRegPost, ldrbtReg), ldrhReg, ldrhImm, ldrsbReg, ldrsbImm, ldrshReg, ldrshImm,
tLdrPc, tLdrReg, tLdrbReg, tLdsbReg, tLdrhReg, tLdshReg, tLdrImm, tLdrbImm, tLdrhImm, tLdrSp, on allowed operands
with the access granted and Rd not r15, complete: a word rotated by its misalignment, a byte or halfword zero- or
sign-extended; the base plus or minus the offset written back where the form does so. No other register, no flag, no
byte of memory changes. From 44_arm_load_store.md R201, R202, R205, R208, R210, R212, R214 to R218,
48_thumb_load_store.md R310, R311, R314, R315, R317, R318, R319, R321, R323, R325, R327, 20_memory.md R67, R83, R84.
-/
def Obligations.SingleLoads : Prop :=
  ∀ (i : Instr) (s : State) (x : Transfer) (k : LoadKind), singleTransfer i s = some x → x.op = .load k →
    x.allowed s → x.answer s = .granted → x.rd ≠ 15 →
    ∃ t, exec i s = .next t ∧ specLoaded k x.address s (t.readReg x.rd) ∧
      (x.writesBack = true → t.readReg x.rn = x.index) ∧
      regsKeptBut (regIndex s.mode x.rd :: x.basePlaces s) s t ∧ flagsKept s t ∧ bytesKept s t ∧ restKept s t ∧
      inSequence s t

/-- LDR to r15 jumps to the word loaded with bits 1:0 cleared, the state kept. ldrImm, ldrImmPost, ldrReg and
ldrRegPost with Rd = 15, on allowed operands with the access granted: the pc is the value loaded with bits 1:0 as
00, T does not change, the base is written back where the form does so. No other register, no flag, no byte of
memory changes. From 44_arm_load_store.md R202, R205, 40_arm_branch.md R135. -/
def Obligations.LoadToPc : Prop :=
  ∀ (i : Instr) (s : State) (x : Transfer) (k : LoadKind), singleTransfer i s = some x → x.op = .load k →
    x.allowed s → x.answer s = .granted → x.rd = 15 →
    ∃ t v, exec i s = .next t ∧ specLoaded k x.address s v ∧ wentTo (lowTwoCleared v) t ∧
      (x.writesBack = true → t.readReg x.rn = x.index) ∧
      regsKeptBut (x.basePlaces s) s t ∧ flagsKept s t ∧ bytesKept s t ∧ restKept s t

/-- Every single store writes its bytes at its address and updates the base as its form says. strImm, strImmPost,
strtImm, strReg, strRegPost, strtReg, strbImm, strbImmPost, strbtImm, strbReg, strbRegPost, strbtReg, strhReg,
strhImm, tStrReg, tStrbReg, tStrhReg, tStrImm, tStrbImm, tStrhImm, tStrSp, on allowed operands with the access
granted and memory in canonical form, complete: the word at the aligned address, the byte or the halfword stored
holds the register (for r15 cur + 8 or cur + 12 as the platform has it); every byte outside it, every other register
and every flag is kept; what the bytes stored held is on record for the prefetch window (R81); the base is written
back where the form does so. From 44_arm_load_store.md R201, R202, R204, R206, R209, R211, R213, R214, R216,
48_thumb_load_store.md R310, R312, R313, R316, R320, R322, R324, R326, 20_memory.md R68, R81, R83, R84. -/
def Obligations.SingleStores : Prop :=
  ∀ (i : Instr) (s : State) (x : Transfer) (k : StoreKind), singleTransfer i s = some x → x.op = .store k →
    x.allowed s → x.answer s = .granted → s.mem.wf = true →
    ∃ t, exec i s = .next t ∧ specStored k x.address (specStoredValue x.rd s) s t ∧
      (x.writesBack = true → t.readReg x.rn = x.index) ∧ regsKeptBut (x.basePlaces s) s t ∧ flagsKept s t ∧
      restKept s t ∧ followsOnPlain s t

/-- An aborted single load or store writes its base back, nothing else, and takes Data Abort. Every single load and
store of ARM and Thumb, on allowed operands, whose access the memory system aborts: the register of a load is not
loaded, memory is not written, the base is written back where the form does so, and Data Abort is entered with
r14_abt = cur + 8. Right after a User-bank transfer in Abort mode, whose r14 that would write, it is refused (log
16). From 44_arm_load_store.md R207, R214, 48_thumb_load_store.md R310, 60_exceptions.md R367,
45_arm_block_transfer.md R244. -/
def Obligations.SingleTransferAbort : Prop :=
  ∀ (i : Instr) (s : State) (x : Transfer), singleTransfer i s = some x → x.allowed s → x.answer s = .aborted →
    (¬ ownBank .abt s → ∃ t, exec i s = .next t ∧ dataAborted (x.based s) t ∧ t.afterUserBank = false) ∧
    (ownBank .abt s → exec i s = .refused .bankedAfterUserBank)

/-- Where single transfers stop: forbidden operands, odd halfwords, nothing mapped. With the condition passed: r15
where the rule forbids it, then a clash of the base with Rd or Rm under write-back, then an odd halfword address are
refused by name, a halfword form with P = 0 and W = 1 is refused, and an allowed access to an address at which
nothing is mapped is a fault. Each refusal is its rule; that they come in this order is the choice of this model
(log 27). From 44_arm_load_store.md R203, R214, 20_memory.md R69, R70, 92_eei_decisions.md D3, D5. -/
def Obligations.SingleTransferStops : Prop :=
  (∀ (i : Instr) (s : State) (x : Transfer), singleTransfer i s = some x → condHolds x.c s.cpsr = true →
    (x.namesPc → exec i s = .refused .pcOperand) ∧
    (¬ x.namesPc → x.clashes → exec i s = .refused .writeBack) ∧
    (¬ x.namesPc → ¬ x.clashes → x.odd → exec i s = .refused .oddHalfword) ∧
    (x.allowed s → x.answer s = .unmapped → exec i s = .fault .unmapped)) ∧
  (∀ (i : Instr) (s : State) (x : Transfer), halfOrSignedTransfer i s = some x → condHolds x.c s.cpsr = true →
    x.p = false → x.w = true → exec i s = .refused .postIndexW)

/-- The registers of a list are those whose bits are set, in ascending order. The list a block transfer goes through
names each register whose bit is set once, the lowest first. From 45_arm_block_transfer.md R231. -/
def Obligations.RegisterListAscending : Prop :=
  ∀ list : BitVec 16, (registersOf list).Pairwise (fun r q => r.toNat < q.toNat) ∧
    ∀ r : Reg, r ∈ registersOf list ↔ list.getLsbD r.toNat = true

/-- LDM (1) and LDM (2) load ascending registers from ascending addresses. ldm1, on an allowed list with every
access granted, completes: each register holds its word, r15 the last one with bits 1:0 as 00, the base its final
value if W = 1. ldm2, in a mode with a User bank of its own apart, W = 0, loads the User bank and marks the
transfer. No other register, no flag, no byte of memory changes. From 45_arm_block_transfer.md R231, R232, R233,
R234, R235, R237. -/
def Obligations.LoadMultiple : Prop :=
  ∀ (c : Cond) (p u w : Bool) (rn : Reg) (s : State), condHolds c s.cpsr = true → rn ≠ 15 →
    let base := s.readReg rn
    (∀ list : BitVec 16,
      let rs := registersOf list
      let start := specStart p u base rs.length
      rs ≠ [] → (w = true → rn ∉ rs) → blockGranted .read start rs.length s →
      ∃ t, exec (.ldm1 c p u w rn list) s = .next t ∧ blockInRegs s.mode rs start s t ∧
        (w = true → t.readReg rn = specFinal u base rs.length) ∧
        regsKeptBut (placesOf s.mode rs ++ baseIf w s.mode rn) s t ∧
        (if 15 ∈ rs then wentTo (lowTwoCleared (s.readWord (blockAddress start (rs.length - 1)))) t
         else inSequence s t) ∧ flagsKept s t ∧ bytesKept s t ∧ restKept s t) ∧
    (∀ list : BitVec 15,
      let rs := registersOf (list.setWidth 16)
      let start := specStart p u base rs.length
      rs ≠ [] → s.mode ≠ .usr → s.mode ≠ .sys → blockGranted .read start rs.length s →
      ∃ t, exec (.ldm2 c p u false rn list) s = .next t ∧ blockInRegs .usr rs start s t ∧
        regsKeptBut (placesOf .usr rs) s t ∧ t.afterUserBank = true ∧ followsOn s t ∧ nothingStored s t ∧ flagsKept s t ∧
        bytesKept s t ∧ restKept s t)

/-- LDM (3) loads the registers of the mode it leaves and returns from the exception, or where it stops. ldm3, in a
mode with an SPSR, on an allowed list with every access granted. With an illegal mode in the SPSR it is a fault,
whatever the last word (the choice of this model, log 27); with a legal one and ARM state, a last word with bits 1:0
not 00 is refused; else it completes: the registers of the starting mode hold their words, its base its final value
if W = 1, the CPSR is the SPSR, and the pc is the last word, bit 0 ignored in Thumb state. SPSRs, other registers
and memory are kept, and no store is left on record. From 45_arm_block_transfer.md R231, R236, 10_state.md R33, R45.
-/
def Obligations.LoadMultipleReturn : Prop :=
  ∀ (c : Cond) (p u w : Bool) (rn : Reg) (list : BitVec 15) (q : Psr) (s : State), condHolds c s.cpsr = true →
    rn ≠ 15 → s.spsrOf s.mode = some q →
    let base := s.readReg rn
    let rs := registersOf (list.setWidth 16 ||| 0x8000#16)
    let start := specStart p u base rs.length
    let target := s.readWord (blockAddress start (rs.length - 1))
    let i : Instr := .ldm3 c p u w rn list
    (w = true → rn ∉ rs) → blockGranted .read start rs.length s →
    (modeOfBits q.m = none → exec i s = .fault .illegalMode) ∧
    (modeOfBits q.m ≠ none → q.t = false → target.toNat % 4 ≠ 0 → exec i s = .refused .pcMisaligned) ∧
    (modeOfBits q.m ≠ none → (q.t = true ∨ target.toNat % 4 = 0) → ∃ t, exec i s = .next t ∧ t.cpsr = q ∧
      wentTo (if q.t then lowOneCleared target else target) t ∧ blockInRegs s.mode rs start s t ∧
      (w = true → t.regs[regIndex s.mode rn] = specFinal u base rs.length) ∧
      regsKeptBut (placesOf s.mode rs ++ baseIf w s.mode rn) s t ∧ spsrsKept s t ∧ bytesKept s t ∧
      outsideKept s t)

/-- STM (1) and STM (2) store ascending registers at ascending addresses. stm1, on an allowed list with every access
granted and memory in canonical form, completes: the words of the block hold the registers before the instruction
(for r15 cur + 8 or cur + 12 as the platform has it), every other byte is kept, what the words held is on record for
the prefetch window (R81), the base has its final value if W = 1. stm2, W = 0, stores the User bank and marks the
transfer. No other register and no flag changes. From 45_arm_block_transfer.md R231, R232, R233, R238, R239,
44_arm_load_store.md R204, 20_memory.md R81. -/
def Obligations.StoreMultiple : Prop :=
  ∀ (c : Cond) (p u w : Bool) (rn : Reg) (list : BitVec 16) (s : State), condHolds c s.cpsr = true → rn ≠ 15 →
    s.mem.wf = true →
    let base := s.readReg rn
    let rs := registersOf list
    let start := specStart p u base rs.length
    rs ≠ [] → blockGranted .write start rs.length s →
    ((w = true → rn ∈ rs → rs.head? = some rn) →
      ∃ t, exec (.stm1 c p u w rn list) s = .next t ∧
        blockInMemory (rs.map (fun r => specStoredValue r s)) start s t ∧
        (w = true → t.readReg rn = specFinal u base rs.length) ∧ regsKeptBut (baseIf w s.mode rn) s t ∧
        followsOnPlain s t ∧ flagsKept s t ∧ restKept s t) ∧
    (s.mode ≠ .usr → s.mode ≠ .sys →
      ∃ t, exec (.stm2 c p u false rn list) s = .next t ∧
        blockInMemory (rs.map (fun r => if r = 15 then specStoredValue 15 s else s.regs[regIndex .usr r])) start s t ∧
        regsKeptBut [] s t ∧ t.afterUserBank = true ∧ followsOn s t ∧ flagsKept s t ∧ restKept s t)

/-- What an abort leaves of LDM, STM, PUSH, POP, STMIA, LDMIA, LDC and STC, and their fault where nothing is mapped.
ldm1, ldm2, ldm3, tPop and tLdmia on operands their rules allow: if the accesses before the j-th are granted and it
aborts, the words before it are in their registers (for ldm2 those of the User bank), no later one is written, r15
and the CPSR are not restored, the base has its final value with write-back and its original one without. stm1,
stm2, tPush and tStmia on operands their rules allow: if some access aborts and something is mapped at each, the
granted words are stored, no other byte, and the base written back. Then Data Abort is entered, from a state v that
differs from s in nothing else. ldc and stc, accepted, likewise: the words before the abort are sent, or the granted
words stored, and the base written back if W = 1. A load whose first access not granted is to nothing mapped, and a
store with any such access, is a fault. An abort in Abort mode right after a User-bank transfer is refused (log 16).
Choices and readings of the model: the base of an aborted tLdmia that is in its own list is base + 4n (log 22); that
LDC and STC leave what LDM and STM leave (log 23), and that what a coprocessor answers and is sent are lists, the
number of words that of the answer (log 10); the fault (logs 8 and 27). From 45_arm_block_transfer.md R242, R244,
48_thumb_load_store.md R310, R330, R331, R333, R334, 46_arm_swap_swi_coproc.md R254, R255, 60_exceptions.md R367,
20_memory.md R70, R76, 92_eei_decisions.md D5, D6. -/
def Obligations.BlockAbort : Prop :=
  (∀ (i : Instr) (s : State) (b : Block), blockForm i s = some b → condHolds b.c s.cpsr = true →
    let n := b.rs.length
    let aborts : (State → Prop) → Prop := fun left =>
      (¬ ownBank .abt s → ∃ t v, exec i s = .next t ∧ dataAborted v t ∧ t.afterUserBank = b.userBank ∧
        v.cur = s.cur ∧ v.cpsr = s.cpsr ∧ spsrsKept s v ∧ outsideKept s v ∧ left v) ∧
      (ownBank .abt s → exec i s = .refused .bankedAfterUserBank)
    (b.load = true → ∀ j,
      (loadStopsAt b.start n j .aborted s → aborts fun v => bytesKept s v ∧ b.loadedUpTo j s v) ∧
      (loadStopsAt b.start n j .unmapped s → exec i s = .fault .unmapped)) ∧
    (b.load = false →
      (s.mem.wf = true → storeAborts b.start n s → aborts fun v => grantedInMemory b.values b.start s v ∧
        v.regs[regIndex s.mode b.rn] = b.final.getD (s.readReg b.rn) ∧ regsKeptBut [regIndex s.mode b.rn] s v) ∧
      ((∃ k, k < n ∧ blockAnswer .write b.start s k = .unmapped) → exec i s = .fault .unmapped))) ∧
  (∀ (c : Cond) (p u n w : Bool) (rn crd : Reg) (cp : BitVec 4) (off : BitVec 8) (first : Word) (more : List Word)
    (rest : List CoprocReply) (s : State), offersTo c cp s → s.replies = .accept first more :: rest →
    (w = true → rn ≠ 15) → (p = true ∨ w = true ∨ u = true) → more.length < 2 ^ 30 →
    let base := s.readReg rn
    let a := coprocAddress p u base off
    let count := more.length + 1
    let aborts : Instr → (State → Prop) → Prop := fun i left =>
      (¬ ownBank .abt s → ∃ t v, exec i s = .next t ∧ dataAborted v t ∧ t.afterUserBank = false ∧ v.cur = s.cur ∧
        v.cpsr = s.cpsr ∧ spsrsKept s v ∧ v.plat = s.plat ∧ v.lines = s.lines ∧ v.replies = rest ∧
        (w = true → v.readReg rn = coprocBase u base off) ∧ regsKeptBut (baseIf w s.mode rn) s v ∧ left v) ∧
      (ownBank .abt s → exec i s = .refused .bankedAfterUserBank)
    (∀ j,
      (loadStopsAt a count j .aborted s → aborts (.ldc c p u n w rn crd cp off) fun v => bytesKept s v ∧
        v.sent = s.sent ++ (List.range j).map (fun k => (cp, s.readWord (blockAddress a k)))) ∧
      (loadStopsAt a count j .unmapped s → exec (.ldc c p u n w rn crd cp off) s = .fault .unmapped)) ∧
    (s.mem.wf = true → storeAborts a count s → aborts (.stc c p u n w rn crd cp off) fun v => v.sent = s.sent ∧
      grantedInMemory (first :: more) a s v) ∧
    ((∃ k, k < count ∧ blockAnswer .write a s k = .unmapped) →
      exec (.stc c p u n w rn crd cp off) s = .fault .unmapped))

/-- The operand combinations of block transfers that are refused. With the condition passed: an empty list, then Rn
= 15, then the base in the list of an LDM with write-back or in that of an STM with write-back but not lowest, LDM
(2) and STM (2) in User or System mode or with W = 1, and LDM (3) in User or System mode are refused by name. Each
refusal is its rule; that they come in this order is the choice of this model (log 27). From
45_arm_block_transfer.md R233, R236, R237, R239. -/
def Obligations.BlockRefusals : Prop :=
  ∀ (c : Cond) (p u w : Bool) (rn : Reg) (list : BitVec 16) (short : BitVec 15) (s : State),
    condHolds c s.cpsr = true →
    let rs := registersOf list
    let rs3 := registersOf (short.setWidth 16 ||| 0x8000#16)
    let userless : Prop := s.mode = .usr ∨ s.mode = .sys
    (list = 0 → exec (.ldm1 c p u w rn list) s = .refused .emptyList ∧
      exec (.stm1 c p u w rn list) s = .refused .emptyList ∧ exec (.stm2 c p u w rn list) s = .refused .emptyList) ∧
    (short = 0 → exec (.ldm2 c p u w rn short) s = .refused .emptyList) ∧
    (list ≠ 0 → exec (.ldm1 c p u w 15 list) s = .refused .pcOperand ∧
      exec (.stm1 c p u w 15 list) s = .refused .pcOperand ∧ exec (.stm2 c p u w 15 list) s = .refused .pcOperand) ∧
    (short ≠ 0 → exec (.ldm2 c p u w 15 short) s = .refused .pcOperand) ∧
    exec (.ldm3 c p u w 15 short) s = .refused .pcOperand ∧
    (rn ≠ 15 →
      (rn ∈ rs → exec (.ldm1 c p u true rn list) s = .refused .baseInList) ∧
      (rn ∈ rs3 → exec (.ldm3 c p u true rn short) s = .refused .baseInList) ∧
      (rn ∈ rs → rs.head? ≠ some rn → exec (.stm1 c p u true rn list) s = .refused .baseInList) ∧
      (short ≠ 0 → userless → exec (.ldm2 c p u w rn short) s = .refused .userBankMode) ∧
      (list ≠ 0 → userless → exec (.stm2 c p u w rn list) s = .refused .userBankMode) ∧
      (short ≠ 0 → ¬ userless → exec (.ldm2 c p u true rn short) s = .refused .userBankWriteBack) ∧
      (list ≠ 0 → ¬ userless → exec (.stm2 c p u true rn list) s = .refused .userBankWriteBack) ∧
      ((w = true → rn ∉ rs3) → userless → exec (.ldm3 c p u w rn short) s = .refused .noSpsr))

/-- SWP and SWPB exchange a register with memory, or take Data Abort with neither changed. swp and swpb on allowed
registers: with the read and the write granted and memory in canonical form they complete, Rd holding what memory
held (a word rotated by its misalignment) and memory the value Rm had, what it held being on record for the prefetch
window (R81); no other register, byte or flag changes. With the read aborted, or the read granted and the write
aborted, Data Abort is entered with no register and no byte written (refused right after a User-bank transfer in
Abort mode, log 16); with nothing mapped at the read, or at the write after a granted read, it is a fault (log 8).
r15, Rn = Rm and Rn = Rd are refused, r15 first (the choice of this model, log 27). From 46_arm_swap_swi_coproc.md
R246, 20_memory.md R67, R68, R70, R81, 92_eei_decisions.md D5. -/
def Obligations.SwapEffect : Prop :=
  ∀ (c : Cond) (byte : Bool) (rn rd rm : Reg) (s : State), condHolds c s.cpsr = true →
    let i : Instr := if byte then .swpb c rn rd rm else .swp c rn rd rm
    let a := s.readReg rn
    let answer : AccessKind → Grant := fun k =>
      if byte then s.access k s.privilege a 1 else s.access k s.privilege (lowTwoCleared a) 4
    (rn = 15 ∨ rd = 15 ∨ rm = 15 → exec i s = .refused .pcOperand) ∧
    (rn ≠ 15 → rd ≠ 15 → rm ≠ 15 →
      (rn = rm ∨ rn = rd → exec i s = .refused .sameRegister) ∧
      (rn ≠ rm → rn ≠ rd →
        (answer .read = .aborted ∨ (answer .read = .granted ∧ answer .write = .aborted) →
          (¬ ownBank .abt s → ∃ t, exec i s = .next t ∧ dataAborted s t ∧ t.afterUserBank = false) ∧
          (ownBank .abt s → exec i s = .refused .bankedAfterUserBank)) ∧
        (answer .read = .unmapped ∨ (answer .read = .granted ∧ answer .write = .unmapped) →
          exec i s = .fault .unmapped) ∧
        (answer .read = .granted → answer .write = .granted → s.mem.wf = true →
          ∃ t, exec i s = .next t ∧ specLoaded (if byte then .byte else .word) a s (t.readReg rd) ∧
            specStored (if byte then .byte else .word) a (s.readReg rm) s t ∧
            regsKeptBut [regIndex s.mode rd] s t ∧ flagsKept s t ∧ restKept s t ∧ followsOnPlain s t)))

/-- B and BL jump by their offset, BL with the return address in r14. b and bl, condition passed, complete: the pc
is cur + 8 plus four times the signed offset, modulo 2^32; BL also writes cur + 4 to r14 of the current mode. No
other register of any bank, flag, SPSR or control bit and no byte of memory changes. From 40_arm_branch.md R131,
R132. -/
def Obligations.ArmBranches : Prop :=
  ∀ (c : Cond) (off : BitVec 24) (s : State), condHolds c s.cpsr = true →
    let target : Word := s.cur + 8 + off.signExtend 32 * 4
    (∃ t, exec (.b c off) s = .next t ∧ jumped target s t) ∧
    (∃ t, exec (.bl c off) s = .next t ∧ wentTo target t ∧ t.readReg 14 = s.cur + 4 ∧
      regsKeptBut [regIndex s.mode 14] s t ∧ flagsKept s t ∧ bytesKept s t ∧ restKept s t)

/-- BX changes to the state that bit 0 of the register says. bx, condition passed, and tBx: bit 0 set continues in
Thumb state at the target with bit 0 cleared, bits 1:0 of 00 in ARM state at the target, bits 1:0 of 10 is refused.
Nothing but T and the pc changes. From 40_arm_branch.md R134, 49_thumb_branch.md R349. -/
def Obligations.Exchange : Prop :=
  ∀ (i : Instr) (c : Cond) (rm : Reg) (s : State), condHolds c s.cpsr = true → i = .bx c rm ∨ i = .tBx rm →
    let a := s.readReg rm
    let goes : Bool → Word → Prop := fun thumb pc => ∃ t, exec i s = .next t ∧ wentTo pc t ∧
      t.cpsr = { s.cpsr with t := thumb } ∧ regsKeptBut [] s t ∧ spsrsKept s t ∧ bytesKept s t ∧ outsideKept s t
    (a.toNat % 2 = 1 → goes true (lowOneCleared a)) ∧ (a.toNat % 4 = 0 → goes false a) ∧
    (a.toNat % 4 = 2 → exec i s = .refused .exchangeMisaligned)

/-- A coprocessor instruction with no coprocessor is undefined; one made to wait does nothing. cdp, mcr, mrc, ldc,
stc, condition passed: coprocessor 14 is refused; an absent one raises Undefined Instruction with no other effect
(refused right after a User-bank transfer in Undefined mode, log 16); a present one that makes the core wait leaves
the whole machine as it was, the record of stores and of a User-bank transfer with it (the answer used up), so that
the instruction is executed again (how answers are given is the model's choice, log 10); the forbidden forms of LDC
and STC are refused. The order, coprocessor 14, then absence, then the forbidden forms, then the answer, is the
choice of this model (log 27). From 46_arm_swap_swi_coproc.md R251, R252, R254, R258, R259, 45_arm_block_transfer.md
R244, 92_eei_decisions.md D9. -/
def Obligations.CoprocessorAbsentOrBusy : Prop :=
  ∀ (i : Instr) (c : Cond) (cp : BitVec 4) (bad : Bool) (s : State), coprocForm i = some (c, cp, bad) →
    condHolds c s.cpsr = true →
    (cp = 14 → exec i s = .refused .debugCoproc) ∧
    (cp ≠ 14 → cp ∉ s.plat.coprocs →
      (¬ ownBank .und s → ∃ t, exec i s = .next t ∧ t.afterUserBank = false ∧
        entered .und 0b11011 0x04 false (s.cur + (if s.cpsr.t then 2 else 4)) s t) ∧
      (ownBank .und s → exec i s = .refused .bankedAfterUserBank)) ∧
    (offersTo c cp s → bad = true → exec i s = .refused .pcOperand ∨ exec i s = .refused .unindexedDown) ∧
    (offersTo c cp s → bad = false →
      (s.replies = [] → exec i s = .next s) ∧
      ∀ rest, s.replies = .busy :: rest → exec i s = .next { s with replies := rest })

/-- CDP, MCR and MRC accepted by their coprocessor. cdp, mcr, mrc, condition passed, the coprocessor present and
accepting, complete: CDP changes nothing of the core; MCR sends Rd, for Rd = 15 some word; MRC writes the word
supplied to Rd, or for Rd = 15 its bits 31:28 to N, Z, C, V. No other register, flag or byte of memory changes.
(That answers and words sent are lists is the model's choice, log 10. That MCR with Rd = 15 completes and sends a
word, left open, is the model's choice too, log 28: R256 calls that form UNPREDICTABLE for the model and
93_implementation_defined.md section 2 would refuse it.) From 46_arm_swap_swi_coproc.md R253, R256, R257. -/
def Obligations.CoprocessorRegister : Prop :=
  ∀ (c : Cond) (op1 : BitVec 4) (o1 : BitVec 3) (crn crd rd crm : Reg) (cp : BitVec 4) (o2 : BitVec 3) (d : Word)
    (more : List Word) (rest : List CoprocReply) (s : State), offersTo c cp s → s.replies = .accept d more :: rest →
    let kept : State → Prop := fun t => coprocKept s t ∧ t.replies = rest ∧ bytesKept s t ∧ inSequence s t
    (∃ t, exec (.cdp c op1 crn crd cp o2 crm) s = .next t ∧ kept t ∧ regsKeptBut [] s t ∧ flagsKept s t ∧
      t.sent = s.sent) ∧
    (∃ t v, exec (.mcr c o1 crn rd cp o2 crm) s = .next t ∧ kept t ∧ regsKeptBut [] s t ∧ flagsKept s t ∧
      t.sent = s.sent ++ [(cp, v)] ∧ (rd ≠ 15 → v = s.readReg rd)) ∧
    (∃ t, exec (.mrc c o1 crn rd cp o2 crm) s = .next t ∧ kept t ∧ t.sent = s.sent ∧
      (rd ≠ 15 → t.readReg rd = d ∧ regsKeptBut [regIndex s.mode rd] s t ∧ flagsKept s t) ∧
      (rd = 15 → regsKeptBut [] s t ∧ flagFieldOf true d s.cpsr t.cpsr))

/-- LDC and STC move consecutive words between memory and their coprocessor. ldc and stc on allowed forms, condition
passed, the coprocessor present and accepting for n words, every access granted, complete: LDC sends the n words
from ascending addresses; STC, memory in canonical form, stores the n words supplied, every other byte kept, what
the words held on record for the prefetch window (R81); the base takes its new value if W = 1. No other register and
no flag changes. (That the number of words is that of the answer is the model's choice, log 10; misaligned bases are
log 23.) From 46_arm_swap_swi_coproc.md R254, R255, 20_memory.md R81. -/
def Obligations.CoprocessorTransfer : Prop :=
  ∀ (c : Cond) (p u n w : Bool) (rn crd : Reg) (cp : BitVec 4) (off : BitVec 8) (first : Word) (more : List Word)
    (rest : List CoprocReply) (s : State), offersTo c cp s → s.replies = .accept first more :: rest →
    (w = true → rn ≠ 15) → (p = true ∨ w = true ∨ u = true) → more.length < 2 ^ 30 →
    let base := s.readReg rn
    let a := coprocAddress p u base off
    let count := more.length + 1
    let kept : State → Prop := fun t => coprocKept s t ∧ t.replies = rest ∧ flagsKept s t ∧ followsOnPlain s t ∧
      (w = true → t.readReg rn = coprocBase u base off) ∧ regsKeptBut (baseIf w s.mode rn) s t
    (blockGranted .read a count s → ∃ t, exec (.ldc c p u n w rn crd cp off) s = .next t ∧ kept t ∧ bytesKept s t ∧ nothingStored s t ∧
      t.sent = s.sent ++ (List.range count).map (fun k => (cp, s.readWord (blockAddress a k)))) ∧
    (blockGranted .write a count s → s.mem.wf = true → ∃ t, exec (.stc c p u n w rn crd cp off) s = .next t ∧
      kept t ∧ t.sent = s.sent ∧ blockInMemory (first :: more) a s t)

/-- The Thumb instructions of formats 1 to 4 act as their ARM equivalents with S = 1. tLslImm, tLsrImm, tAsrImm,
tAddReg, tSubReg, tAddImm3, tSubImm3, tMovImm8, tCmpImm8, tAddImm8, tSubImm8, tAnd, tEor, tLslReg, tLsrReg, tAsrReg,
tAdc, tSbc, tRorReg, tTst, tNeg, tCmp, tCmn, tOrr, tBic, tMvn complete from every state: the result of the operation
on their operands in Rd (none for TST, CMP, CMN), and N, Z, C, V as the ARM equivalent gives them. No other
register, no memory, nothing of the rest changes. From 47_thumb_alu.md R265 to R268, R270 to R273, R275 to R278,
R280 to R292, R294, R295. -/
def Obligations.ThumbData : Prop :=
  ∀ (i : Instr) (s : State) (op : AluOp) (rd : LowReg) (a : Word) (o : Shifted),
    thumbDataForm i s = some (op, rd, a, o) →
    ∃ t, exec i s = .next t ∧ dataEffect op true (lowReg rd) a o s t

/-- The Thumb high-register and stack-pointer instructions. tAddHi, tMovHi and tCmpHi with a high register, tAddPc,
tAddSp, tSpUp, tSpDown complete: the sum or the value in Rd with no flag changed, a pc destination a jump with bit 0
cleared; CMP sets N, Z, C, V and writes no register; ADD Rd, pc takes the pc value with bits 1:0 cleared. With both
registers low, and for CMP with Rd = 15, format 5 is refused. From 47_thumb_alu.md R296 to R299, R302, R303, R305.
-/
def Obligations.ThumbHighAndSp : Prop :=
  ∀ (d src : Reg) (rd : LowReg) (off : BitVec 8) (off7 : BitVec 7) (s : State),
    let gives : Instr → Reg → Word → Prop := fun i r v => ∃ t, exec i s = .next t ∧ wroteOnly r v s t
    let jumps : Instr → Word → Prop := fun i a => ∃ t, exec i s = .next t ∧ jumped a s t
    (8 ≤ d.toNat ∨ 8 ≤ src.toNat →
      (d ≠ 15 → gives (.tAddHi d src) d (s.readReg d + s.readReg src) ∧ gives (.tMovHi d src) d (s.readReg src) ∧
        ∃ t, exec (.tCmpHi d src) s = .next t ∧ dataEffect .cmp true d (s.readReg d) ⟨s.readReg src, none⟩ s t) ∧
      (d = 15 → jumps (.tAddHi d src) (lowOneCleared (s.readReg d + s.readReg src)) ∧
        jumps (.tMovHi d src) (lowOneCleared (s.readReg src)) ∧ exec (.tCmpHi d src) s = .refused .pcOperand)) ∧
    (d.toNat < 8 → src.toNat < 8 → exec (.tAddHi d src) s = .refused .bothLow ∧
      exec (.tMovHi d src) s = .refused .bothLow ∧ exec (.tCmpHi d src) s = .refused .bothLow) ∧
    gives (.tAddPc rd off) (lowReg rd) (lowTwoCleared (s.readReg 15) + off.setWidth 32 * 4) ∧
    gives (.tAddSp rd off) (lowReg rd) (s.readReg 13 + off.setWidth 32 * 4) ∧
    gives (.tSpUp off7) 13 (s.readReg 13 + off7.setWidth 32 * 4) ∧
    gives (.tSpDown off7) 13 (s.readReg 13 - off7.setWidth 32 * 4)

/-- PUSH and STMIA store ascending registers and move their base. tPush and tStmia on a list that is not empty, and
that does not hold the base of tStmia but as its lowest register, with every access granted and memory in canonical
form, complete: PUSH stores the list, and lr last if R = 1, from sp - 4n on and writes that address to sp; STMIA
stores the list from Rb on and writes Rb + 4n to Rb; a base that is the lowest of the list is stored as it was. What
the words held is on record for the prefetch window (R81); every other byte, register and flag is kept. An empty
list is refused, and so is a tStmia whose base is in the list and not the lowest. From 48_thumb_load_store.md R310,
R330, R333, 20_memory.md R81. -/
def Obligations.ThumbBlockStores : Prop :=
  ∀ (lr : Bool) (rb : LowReg) (list : BitVec 8) (s : State), s.mem.wf = true →
    let kept : Reg → State → Prop := fun r t => regsKeptBut [regIndex s.mode r] s t ∧ flagsKept s t ∧ restKept s t ∧
      followsOnPlain s t
    (let rs := registersOf (list.setWidth 16) ++ (if lr then [14] else [])
     let start := s.readReg 13 - four rs.length
     (rs = [] → exec (.tPush lr list) s = .refused .emptyList) ∧
     (rs ≠ [] → blockGranted .write start rs.length s → ∃ t, exec (.tPush lr list) s = .next t ∧
       blockInMemory (rs.map s.readReg) start s t ∧ t.readReg 13 = start ∧ kept 13 t)) ∧
    (let rs := registersOf (list.setWidth 16)
     let start := s.readReg (lowReg rb)
     (rs = [] → exec (.tStmia rb list) s = .refused .emptyList) ∧
     (lowReg rb ∈ rs → rs.head? ≠ some (lowReg rb) → exec (.tStmia rb list) s = .refused .baseInList) ∧
     (rs ≠ [] → (lowReg rb ∈ rs → rs.head? = some (lowReg rb)) → blockGranted .write start rs.length s →
       ∃ t, exec (.tStmia rb list) s = .next t ∧ blockInMemory (rs.map s.readReg) start s t ∧
         t.readReg (lowReg rb) = start + four rs.length ∧ kept (lowReg rb) t))

/-- POP and LDMIA load ascending registers and move their base. tPop and tLdmia on a list that is not empty, with
every access granted, complete: POP loads the list, and the pc last if R = 1 (bit 0 ignored, Thumb state kept), and
adds 4n to sp; LDMIA loads the list and adds 4n to Rb unless Rb is loaded. No other register, no flag, no byte of
memory changes. An empty list is refused. From 48_thumb_load_store.md R310, R331, R334. -/
def Obligations.ThumbBlockLoads : Prop :=
  ∀ (pc : Bool) (rb : LowReg) (list : BitVec 8) (s : State),
    let kept : List (Fin 30) → State → Prop := fun ks t => regsKeptBut ks s t ∧ flagsKept s t ∧ bytesKept s t ∧
      restKept s t
    (let rs := registersOf (list.setWidth 16) ++ (if pc then [15] else [])
     let start := s.readReg 13
     (rs = [] → exec (.tPop pc list) s = .refused .emptyList) ∧
     (rs ≠ [] → blockGranted .read start rs.length s → ∃ t, exec (.tPop pc list) s = .next t ∧
       blockInRegs s.mode rs start s t ∧ t.readReg 13 = start + four rs.length ∧
       (if pc then wentTo (lowOneCleared (s.readWord (blockAddress start (rs.length - 1)))) t else inSequence s t) ∧
       kept (placesOf s.mode rs ++ [regIndex s.mode 13]) t)) ∧
    (let rs := registersOf (list.setWidth 16)
     let start := s.readReg (lowReg rb)
     (rs = [] → exec (.tLdmia rb list) s = .refused .emptyList) ∧
     (rs ≠ [] → blockGranted .read start rs.length s → ∃ t, exec (.tLdmia rb list) s = .next t ∧
       blockInRegs s.mode rs start s t ∧ (lowReg rb ∉ rs → t.readReg (lowReg rb) = start + four rs.length) ∧
       inSequence s t ∧ kept (placesOf s.mode rs ++ [regIndex s.mode (lowReg rb)]) t))

/-- The Thumb branches, conditional, unconditional and the halves of BL. tBeq, tBne, tBcs, tBcc, tBmi, tBpl, tBvs,
tBvc, tBhi, tBls, tBge, tBlt, tBgt, tBle complete: taken, at cur + 4 plus twice the signed offset; else at the next
instruction. tB is always taken. tBlPrefix writes cur + 4 plus the offset scaled by 4096 to r14; tBlSuffix jumps to
r14 plus twice its offset with bit 0 cleared and writes (cur + 2) OR 1 to r14. Nothing else changes. From
49_thumb_branch.md R340, R341, R344, R346, R347. -/
def Obligations.ThumbBranches : Prop :=
  (∀ (c : Cond) (off : BitVec 8) (i : Instr) (s : State), Instr.tBcond c off = some i →
    (condHolds c s.cpsr = true → ∃ t, exec i s = .next t ∧ jumped (s.cur + 4 + off.signExtend 32 * 2) s t) ∧
    (condHolds c s.cpsr = false → ∃ t, exec i s = .next t ∧ onlyAdvanced s t)) ∧
  (∀ (off : BitVec 11) (s : State),
    (∃ t, exec (.tB off) s = .next t ∧ jumped (s.cur + 4 + off.signExtend 32 * 2) s t) ∧
    (∃ t, exec (.tBlPrefix off) s = .next t ∧ wroteOnly 14 (s.cur + 4 + off.signExtend 32 * 4096) s t) ∧
    (∃ t, exec (.tBlSuffix off) s = .next t ∧ wentTo (lowOneCleared (s.readReg 14 + off.setWidth 32 * 2)) t ∧
      t.readReg 14 = (s.cur + 2) ||| 1 ∧ regsKeptBut [regIndex s.mode 14] s t ∧ flagsKept s t ∧ bytesKept s t ∧
      restKept s t))

/-- The two halves of the Thumb BL reach their target with the return address in r14. In Thumb state at a
halfword-aligned address, the prefix and then the suffix run to cur + 4 plus the two offsets, modulo 2^32, and leave
(cur + 4) OR 1 in r14. No other register, no flag, no memory changes. From 49_thumb_branch.md R345, R346, R347. -/
def Obligations.ThumbLongBranch : Prop :=
  ∀ (hi lo : BitVec 11) (s : State), s.cpsr.t = true → s.cur.toNat % 2 = 0 →
    ∃ t u, exec (.tBlPrefix hi) s = .next t ∧ exec (.tBlSuffix lo) t = .next u ∧
      wentTo (s.cur + 4 + hi.signExtend 32 * 4096 + lo.setWidth 32 * 2) u ∧ u.readReg 14 = (s.cur + 4) ||| 1 ∧
      regsKeptBut [regIndex s.mode 14] s u ∧ flagsKept s u ∧ bytesKept s u ∧ restKept s u
end

