-- ==== Sys2Proof/Laws/Encoding.lean ====
section
/-! SUPPORT. The fields of an encoded word read back: the lemmas by which decoding follows encoding
(30_encoding.md R91 to R111). -/

namespace Sys2Proof

@[simp] theorem condOfBits_bits (c : Cond) : condOfBits c.bits = some c := by cases c <;> rfl

@[simp] theorem aluOpOfBits_bits (op : AluOp) : aluOpOfBits op.bits = op := by cases op <;> rfl

@[simp] theorem shiftOfBits_bits (sh : Shift) : shiftOfBits sh.bits = sh := by cases sh <;> rfl

@[simp] theorem bits_aluOpOfBits (x : BitVec 4) : (aluOpOfBits x).bits = x := by revert x; decide

@[simp] theorem bits_shiftOfBits (x : BitVec 2) : (shiftOfBits x).bits = x := by revert x; decide

theorem bits_of_condOfBits {x : BitVec 4} {c : Cond} (h : condOfBits x = some c) : c.bits = x := by
  have all : ∀ x : BitVec 4, (condOfBits x).all (fun c => c.bits == x) = true := by decide
  simpa [h] using all x

/-- A field of a union is the union of the fields. -/
theorem extractLsb'_union {w : Nat} (x y : BitVec w) (a n : Nat) :
    (x ||| y).extractLsb' a n = x.extractLsb' a n ||| y.extractLsb' a n := by
  ext i hi
  simp

theorem getElem_bit (b : Bool) : (bit b)[0] = b := by cases b <;> rfl

theorem getLsbD_bit (b : Bool) (i : Nat) : (bit b).getLsbD i = (decide (i = 0) && b) := by
  cases b <;> simp [bit]

/-! ## Words -/

/-- A field put at its place reads back. -/
theorem wordAt_same {n lo : Nat} (x : BitVec n) (h : lo + n ≤ 32) : (wordAt lo x).extractLsb' lo n = x := by
  ext i hi
  have h2 : lo + i < 32 := by omega
  simp [wordAt, h2, BitVec.getLsbD_eq_getElem hi]

/-- A field put elsewhere leaves zeros. -/
theorem wordAt_apart {n lo a m : Nat} (x : BitVec n) (h : lo + n ≤ a ∨ a + m ≤ lo) :
    (wordAt lo x).extractLsb' a m = 0#m := by
  ext i hi
  simp only [wordAt, BitVec.getElem_extractLsb', BitVec.getLsbD_shiftLeft, BitVec.getLsbD_setWidth,
    BitVec.getElem_zero]
  by_cases h1 : a + i < lo
  · simp [h1]
  · rw [BitVec.getLsbD_of_ge x (a + i - lo) (by omega)]
    simp

/-- A part of a field reads back. -/
theorem wordAt_inside {n lo a m : Nat} (x : BitVec n) (h : lo ≤ a ∧ a + m ≤ lo + n ∧ lo + n ≤ 32) :
    (wordAt lo x).extractLsb' a m = x.extractLsb' (a - lo) m := by
  ext i hi
  have e : a + i - lo = a - lo + i := by omega
  have h1 : ¬ a + i < lo := by omega
  have h2 : a + i < 32 := by omega
  simp [wordAt, e, h1, h2]

/-- A bit of a field put at its place. -/
theorem getLsbD_wordAt {n lo i : Nat} (x : BitVec n) (hi : i < 32) :
    (wordAt lo x).getLsbD i = (decide (lo ≤ i) && x.getLsbD (i - lo)) := by
  by_cases h : i < lo
  · simp [wordAt, hi, h]
  · simp [wordAt, hi, h]
    omega

theorem getElem_wordAt {n lo i : Nat} (x : BitVec n) (hi : i < 32) :
    (wordAt lo x)[i] = (decide (lo ≤ i) && x.getLsbD (i - lo)) := by
  rw [← BitVec.getLsbD_eq_getElem, getLsbD_wordAt x hi]

/-! ## Halfwords -/

/-- A field put at its place reads back. -/
theorem halfAt_same {n lo : Nat} (x : BitVec n) (h : lo + n ≤ 16) : (halfAt lo x).extractLsb' lo n = x := by
  ext i hi
  have h2 : lo + i < 16 := by omega
  simp [halfAt, h2, BitVec.getLsbD_eq_getElem hi]

/-- A field put elsewhere leaves zeros. -/
theorem halfAt_apart {n lo a m : Nat} (x : BitVec n) (h : lo + n ≤ a ∨ a + m ≤ lo) :
    (halfAt lo x).extractLsb' a m = 0#m := by
  ext i hi
  simp only [halfAt, BitVec.getElem_extractLsb', BitVec.getLsbD_shiftLeft, BitVec.getLsbD_setWidth,
    BitVec.getElem_zero]
  by_cases h1 : a + i < lo
  · simp [h1]
  · rw [BitVec.getLsbD_of_ge x (a + i - lo) (by omega)]
    simp

/-- A part of a field reads back. -/
theorem halfAt_inside {n lo a m : Nat} (x : BitVec n) (h : lo ≤ a ∧ a + m ≤ lo + n ∧ lo + n ≤ 16) :
    (halfAt lo x).extractLsb' a m = x.extractLsb' (a - lo) m := by
  ext i hi
  have e : a + i - lo = a - lo + i := by omega
  have h1 : ¬ a + i < lo := by omega
  have h2 : a + i < 16 := by omega
  simp [halfAt, e, h1, h2]

/-- A bit of a field put at its place. -/
theorem getLsbD_halfAt {n lo i : Nat} (x : BitVec n) (hi : i < 16) :
    (halfAt lo x).getLsbD i = (decide (lo ≤ i) && x.getLsbD (i - lo)) := by
  by_cases h : i < lo
  · simp [halfAt, hi, h]
  · simp [halfAt, hi, h]
    omega

theorem getElem_halfAt {n lo i : Nat} (x : BitVec n) (hi : i < 16) :
    (halfAt lo x)[i] = (decide (lo ≤ i) && x.getLsbD (i - lo)) := by
  rw [← BitVec.getLsbD_eq_getElem, getLsbD_halfAt x hi]

/-! ## The condition field -/

/-- Every ARM encoding has a condition in bits 31:28; none has 1111 there (30_encoding.md R94). -/
theorem encode_condition {i : Instr} {w : Word} (h : encode i = .arm w) : ∃ c : Cond, w.extractLsb' 28 4 = c.bits := by
  cases i <;> (simp only [encode, Code.arm.injEq, reduceCtorEq] at h) <;> subst h <;>
    refine ⟨‹Cond›, ?_⟩ <;>
    simp only [encodeDpImm, encodeDpShImm, encodeDpShReg, encodeMultiply, encodeHalf, encodeTransferImm,
      encodeTransferReg, encodeBlock, extractLsb'_union] <;>
    simp (disch := omega) [wordAt_same, wordAt_apart]

end Sys2Proof
end

