-- ==== Sys2Proof/Laws/State.lean ====
section
/-! SUPPORT. What each update of the state does to each field, and what registers, modes and accesses
see of it. -/

namespace Sys2Proof.Machine

/-! ### writeReg -/

@[simp] theorem State.writeReg_cur (s : State) (r : Reg) (v : Word) : (s.writeReg r v).cur = s.cur := by unfold State.writeReg; split <;> rfl
@[simp] theorem State.writeReg_cpsr (s : State) (r : Reg) (v : Word) : (s.writeReg r v).cpsr = s.cpsr := by unfold State.writeReg; split <;> rfl
@[simp] theorem State.writeReg_spsrFiq (s : State) (r : Reg) (v : Word) : (s.writeReg r v).spsrFiq = s.spsrFiq := by unfold State.writeReg; split <;> rfl
@[simp] theorem State.writeReg_spsrIrq (s : State) (r : Reg) (v : Word) : (s.writeReg r v).spsrIrq = s.spsrIrq := by unfold State.writeReg; split <;> rfl
@[simp] theorem State.writeReg_spsrSvc (s : State) (r : Reg) (v : Word) : (s.writeReg r v).spsrSvc = s.spsrSvc := by unfold State.writeReg; split <;> rfl
@[simp] theorem State.writeReg_spsrAbt (s : State) (r : Reg) (v : Word) : (s.writeReg r v).spsrAbt = s.spsrAbt := by unfold State.writeReg; split <;> rfl
@[simp] theorem State.writeReg_spsrUnd (s : State) (r : Reg) (v : Word) : (s.writeReg r v).spsrUnd = s.spsrUnd := by unfold State.writeReg; split <;> rfl
@[simp] theorem State.writeReg_mem (s : State) (r : Reg) (v : Word) : (s.writeReg r v).mem = s.mem := by unfold State.writeReg; split <;> rfl
@[simp] theorem State.writeReg_plat (s : State) (r : Reg) (v : Word) : (s.writeReg r v).plat = s.plat := by unfold State.writeReg; split <;> rfl
@[simp] theorem State.writeReg_lines (s : State) (r : Reg) (v : Word) : (s.writeReg r v).lines = s.lines := by unfold State.writeReg; split <;> rfl
@[simp] theorem State.writeReg_replies (s : State) (r : Reg) (v : Word) : (s.writeReg r v).replies = s.replies := by unfold State.writeReg; split <;> rfl
@[simp] theorem State.writeReg_sent (s : State) (r : Reg) (v : Word) : (s.writeReg r v).sent = s.sent := by unfold State.writeReg; split <;> rfl
@[simp] theorem State.writeReg_pastTop (s : State) (r : Reg) (v : Word) : (s.writeReg r v).pastTop = s.pastTop := by unfold State.writeReg; split <;> rfl
@[simp] theorem State.writeReg_afterUserBank (s : State) (r : Reg) (v : Word) : (s.writeReg r v).afterUserBank = s.afterUserBank := by unfold State.writeReg; split <;> rfl
@[simp] theorem State.writeReg_currentStores (s : State) (r : Reg) (v : Word) : (s.writeReg r v).currentStores = s.currentStores := by unfold State.writeReg; split <;> rfl
@[simp] theorem State.writeReg_recentStores (s : State) (r : Reg) (v : Word) : (s.writeReg r v).recentStores = s.recentStores := by unfold State.writeReg; split <;> rfl
@[simp] theorem State.writeReg_olderStores (s : State) (r : Reg) (v : Word) : (s.writeReg r v).olderStores = s.olderStores := by unfold State.writeReg; split <;> rfl
@[simp] theorem State.writeReg_draws (s : State) (r : Reg) (v : Word) : (s.writeReg r v).draws = s.draws := by unfold State.writeReg; split <;> rfl

/-! ### writeUserReg -/

@[simp] theorem State.writeUserReg_cur (s : State) (r : Reg) (v : Word) : (s.writeUserReg r v).cur = s.cur := by unfold State.writeUserReg; split <;> rfl
@[simp] theorem State.writeUserReg_cpsr (s : State) (r : Reg) (v : Word) : (s.writeUserReg r v).cpsr = s.cpsr := by unfold State.writeUserReg; split <;> rfl
@[simp] theorem State.writeUserReg_spsrFiq (s : State) (r : Reg) (v : Word) : (s.writeUserReg r v).spsrFiq = s.spsrFiq := by unfold State.writeUserReg; split <;> rfl
@[simp] theorem State.writeUserReg_spsrIrq (s : State) (r : Reg) (v : Word) : (s.writeUserReg r v).spsrIrq = s.spsrIrq := by unfold State.writeUserReg; split <;> rfl
@[simp] theorem State.writeUserReg_spsrSvc (s : State) (r : Reg) (v : Word) : (s.writeUserReg r v).spsrSvc = s.spsrSvc := by unfold State.writeUserReg; split <;> rfl
@[simp] theorem State.writeUserReg_spsrAbt (s : State) (r : Reg) (v : Word) : (s.writeUserReg r v).spsrAbt = s.spsrAbt := by unfold State.writeUserReg; split <;> rfl
@[simp] theorem State.writeUserReg_spsrUnd (s : State) (r : Reg) (v : Word) : (s.writeUserReg r v).spsrUnd = s.spsrUnd := by unfold State.writeUserReg; split <;> rfl
@[simp] theorem State.writeUserReg_mem (s : State) (r : Reg) (v : Word) : (s.writeUserReg r v).mem = s.mem := by unfold State.writeUserReg; split <;> rfl
@[simp] theorem State.writeUserReg_plat (s : State) (r : Reg) (v : Word) : (s.writeUserReg r v).plat = s.plat := by unfold State.writeUserReg; split <;> rfl
@[simp] theorem State.writeUserReg_lines (s : State) (r : Reg) (v : Word) : (s.writeUserReg r v).lines = s.lines := by unfold State.writeUserReg; split <;> rfl
@[simp] theorem State.writeUserReg_replies (s : State) (r : Reg) (v : Word) : (s.writeUserReg r v).replies = s.replies := by unfold State.writeUserReg; split <;> rfl
@[simp] theorem State.writeUserReg_sent (s : State) (r : Reg) (v : Word) : (s.writeUserReg r v).sent = s.sent := by unfold State.writeUserReg; split <;> rfl
@[simp] theorem State.writeUserReg_pastTop (s : State) (r : Reg) (v : Word) : (s.writeUserReg r v).pastTop = s.pastTop := by unfold State.writeUserReg; split <;> rfl
@[simp] theorem State.writeUserReg_afterUserBank (s : State) (r : Reg) (v : Word) : (s.writeUserReg r v).afterUserBank = s.afterUserBank := by unfold State.writeUserReg; split <;> rfl
@[simp] theorem State.writeUserReg_currentStores (s : State) (r : Reg) (v : Word) : (s.writeUserReg r v).currentStores = s.currentStores := by unfold State.writeUserReg; split <;> rfl
@[simp] theorem State.writeUserReg_recentStores (s : State) (r : Reg) (v : Word) : (s.writeUserReg r v).recentStores = s.recentStores := by unfold State.writeUserReg; split <;> rfl
@[simp] theorem State.writeUserReg_olderStores (s : State) (r : Reg) (v : Word) : (s.writeUserReg r v).olderStores = s.olderStores := by unfold State.writeUserReg; split <;> rfl
@[simp] theorem State.writeUserReg_draws (s : State) (r : Reg) (v : Word) : (s.writeUserReg r v).draws = s.draws := by unfold State.writeUserReg; split <;> rfl

/-! ### writtenBack -/

@[simp] theorem State.writtenBack_cur (s : State) (r : Reg) (v : Option Word) : (s.writtenBack r v).cur = s.cur := by cases v <;> simp [State.writtenBack]
@[simp] theorem State.writtenBack_cpsr (s : State) (r : Reg) (v : Option Word) : (s.writtenBack r v).cpsr = s.cpsr := by cases v <;> simp [State.writtenBack]
@[simp] theorem State.writtenBack_spsrFiq (s : State) (r : Reg) (v : Option Word) : (s.writtenBack r v).spsrFiq = s.spsrFiq := by cases v <;> simp [State.writtenBack]
@[simp] theorem State.writtenBack_spsrIrq (s : State) (r : Reg) (v : Option Word) : (s.writtenBack r v).spsrIrq = s.spsrIrq := by cases v <;> simp [State.writtenBack]
@[simp] theorem State.writtenBack_spsrSvc (s : State) (r : Reg) (v : Option Word) : (s.writtenBack r v).spsrSvc = s.spsrSvc := by cases v <;> simp [State.writtenBack]
@[simp] theorem State.writtenBack_spsrAbt (s : State) (r : Reg) (v : Option Word) : (s.writtenBack r v).spsrAbt = s.spsrAbt := by cases v <;> simp [State.writtenBack]
@[simp] theorem State.writtenBack_spsrUnd (s : State) (r : Reg) (v : Option Word) : (s.writtenBack r v).spsrUnd = s.spsrUnd := by cases v <;> simp [State.writtenBack]
@[simp] theorem State.writtenBack_mem (s : State) (r : Reg) (v : Option Word) : (s.writtenBack r v).mem = s.mem := by cases v <;> simp [State.writtenBack]
@[simp] theorem State.writtenBack_plat (s : State) (r : Reg) (v : Option Word) : (s.writtenBack r v).plat = s.plat := by cases v <;> simp [State.writtenBack]
@[simp] theorem State.writtenBack_lines (s : State) (r : Reg) (v : Option Word) : (s.writtenBack r v).lines = s.lines := by cases v <;> simp [State.writtenBack]
@[simp] theorem State.writtenBack_replies (s : State) (r : Reg) (v : Option Word) : (s.writtenBack r v).replies = s.replies := by cases v <;> simp [State.writtenBack]
@[simp] theorem State.writtenBack_sent (s : State) (r : Reg) (v : Option Word) : (s.writtenBack r v).sent = s.sent := by cases v <;> simp [State.writtenBack]
@[simp] theorem State.writtenBack_pastTop (s : State) (r : Reg) (v : Option Word) : (s.writtenBack r v).pastTop = s.pastTop := by cases v <;> simp [State.writtenBack]
@[simp] theorem State.writtenBack_afterUserBank (s : State) (r : Reg) (v : Option Word) : (s.writtenBack r v).afterUserBank = s.afterUserBank := by cases v <;> simp [State.writtenBack]
@[simp] theorem State.writtenBack_currentStores (s : State) (r : Reg) (v : Option Word) : (s.writtenBack r v).currentStores = s.currentStores := by cases v <;> simp [State.writtenBack]
@[simp] theorem State.writtenBack_recentStores (s : State) (r : Reg) (v : Option Word) : (s.writtenBack r v).recentStores = s.recentStores := by cases v <;> simp [State.writtenBack]
@[simp] theorem State.writtenBack_olderStores (s : State) (r : Reg) (v : Option Word) : (s.writtenBack r v).olderStores = s.olderStores := by cases v <;> simp [State.writtenBack]
@[simp] theorem State.writtenBack_draws (s : State) (r : Reg) (v : Option Word) : (s.writtenBack r v).draws = s.draws := by cases v <;> simp [State.writtenBack]

/-! ### withCpsr -/

@[simp] theorem State.withCpsr_regs (s : State) (p : Psr) : (s.withCpsr p).regs = s.regs := rfl
@[simp] theorem State.withCpsr_cur (s : State) (p : Psr) : (s.withCpsr p).cur = s.cur := rfl
@[simp] theorem State.withCpsr_cpsr (s : State) (p : Psr) : (s.withCpsr p).cpsr = p := rfl
@[simp] theorem State.withCpsr_spsrFiq (s : State) (p : Psr) : (s.withCpsr p).spsrFiq = s.spsrFiq := rfl
@[simp] theorem State.withCpsr_spsrIrq (s : State) (p : Psr) : (s.withCpsr p).spsrIrq = s.spsrIrq := rfl
@[simp] theorem State.withCpsr_spsrSvc (s : State) (p : Psr) : (s.withCpsr p).spsrSvc = s.spsrSvc := rfl
@[simp] theorem State.withCpsr_spsrAbt (s : State) (p : Psr) : (s.withCpsr p).spsrAbt = s.spsrAbt := rfl
@[simp] theorem State.withCpsr_spsrUnd (s : State) (p : Psr) : (s.withCpsr p).spsrUnd = s.spsrUnd := rfl
@[simp] theorem State.withCpsr_mem (s : State) (p : Psr) : (s.withCpsr p).mem = s.mem := rfl
@[simp] theorem State.withCpsr_plat (s : State) (p : Psr) : (s.withCpsr p).plat = s.plat := rfl
@[simp] theorem State.withCpsr_lines (s : State) (p : Psr) : (s.withCpsr p).lines = s.lines := rfl
@[simp] theorem State.withCpsr_replies (s : State) (p : Psr) : (s.withCpsr p).replies = s.replies := rfl
@[simp] theorem State.withCpsr_sent (s : State) (p : Psr) : (s.withCpsr p).sent = s.sent := rfl
@[simp] theorem State.withCpsr_pastTop (s : State) (p : Psr) : (s.withCpsr p).pastTop = s.pastTop := rfl
@[simp] theorem State.withCpsr_afterUserBank (s : State) (p : Psr) : (s.withCpsr p).afterUserBank = s.afterUserBank := rfl
@[simp] theorem State.withCpsr_currentStores (s : State) (p : Psr) : (s.withCpsr p).currentStores = s.currentStores := rfl
@[simp] theorem State.withCpsr_recentStores (s : State) (p : Psr) : (s.withCpsr p).recentStores = s.recentStores := rfl
@[simp] theorem State.withCpsr_olderStores (s : State) (p : Psr) : (s.withCpsr p).olderStores = s.olderStores := rfl
@[simp] theorem State.withCpsr_draws (s : State) (p : Psr) : (s.withCpsr p).draws = s.draws := rfl

/-! ### drawn -/

@[simp] theorem State.drawn_regs (s : State) : (s.drawn).regs = s.regs := rfl
@[simp] theorem State.drawn_cur (s : State) : (s.drawn).cur = s.cur := rfl
@[simp] theorem State.drawn_cpsr (s : State) : (s.drawn).cpsr = s.cpsr := rfl
@[simp] theorem State.drawn_spsrFiq (s : State) : (s.drawn).spsrFiq = s.spsrFiq := rfl
@[simp] theorem State.drawn_spsrIrq (s : State) : (s.drawn).spsrIrq = s.spsrIrq := rfl
@[simp] theorem State.drawn_spsrSvc (s : State) : (s.drawn).spsrSvc = s.spsrSvc := rfl
@[simp] theorem State.drawn_spsrAbt (s : State) : (s.drawn).spsrAbt = s.spsrAbt := rfl
@[simp] theorem State.drawn_spsrUnd (s : State) : (s.drawn).spsrUnd = s.spsrUnd := rfl
@[simp] theorem State.drawn_mem (s : State) : (s.drawn).mem = s.mem := rfl
@[simp] theorem State.drawn_plat (s : State) : (s.drawn).plat = s.plat := rfl
@[simp] theorem State.drawn_lines (s : State) : (s.drawn).lines = s.lines := rfl
@[simp] theorem State.drawn_replies (s : State) : (s.drawn).replies = s.replies := rfl
@[simp] theorem State.drawn_sent (s : State) : (s.drawn).sent = s.sent := rfl
@[simp] theorem State.drawn_pastTop (s : State) : (s.drawn).pastTop = s.pastTop := rfl
@[simp] theorem State.drawn_afterUserBank (s : State) : (s.drawn).afterUserBank = s.afterUserBank := rfl
@[simp] theorem State.drawn_currentStores (s : State) : (s.drawn).currentStores = s.currentStores := rfl
@[simp] theorem State.drawn_recentStores (s : State) : (s.drawn).recentStores = s.recentStores := rfl
@[simp] theorem State.drawn_olderStores (s : State) : (s.drawn).olderStores = s.olderStores := rfl
@[simp] theorem State.drawn_draws (s : State) : (s.drawn).draws = s.draws + 1 := rfl

/-! ### branchTo -/

@[simp] theorem State.branchTo_regs (s : State) (t : Word) : (s.branchTo t).regs = s.regs := rfl
@[simp] theorem State.branchTo_cur (s : State) (t : Word) : (s.branchTo t).cur = t := rfl
@[simp] theorem State.branchTo_cpsr (s : State) (t : Word) : (s.branchTo t).cpsr = s.cpsr := rfl
@[simp] theorem State.branchTo_spsrFiq (s : State) (t : Word) : (s.branchTo t).spsrFiq = s.spsrFiq := rfl
@[simp] theorem State.branchTo_spsrIrq (s : State) (t : Word) : (s.branchTo t).spsrIrq = s.spsrIrq := rfl
@[simp] theorem State.branchTo_spsrSvc (s : State) (t : Word) : (s.branchTo t).spsrSvc = s.spsrSvc := rfl
@[simp] theorem State.branchTo_spsrAbt (s : State) (t : Word) : (s.branchTo t).spsrAbt = s.spsrAbt := rfl
@[simp] theorem State.branchTo_spsrUnd (s : State) (t : Word) : (s.branchTo t).spsrUnd = s.spsrUnd := rfl
@[simp] theorem State.branchTo_mem (s : State) (t : Word) : (s.branchTo t).mem = s.mem := rfl
@[simp] theorem State.branchTo_plat (s : State) (t : Word) : (s.branchTo t).plat = s.plat := rfl
@[simp] theorem State.branchTo_lines (s : State) (t : Word) : (s.branchTo t).lines = s.lines := rfl
@[simp] theorem State.branchTo_replies (s : State) (t : Word) : (s.branchTo t).replies = s.replies := rfl
@[simp] theorem State.branchTo_sent (s : State) (t : Word) : (s.branchTo t).sent = s.sent := rfl
@[simp] theorem State.branchTo_pastTop (s : State) (t : Word) : (s.branchTo t).pastTop = false := rfl
@[simp] theorem State.branchTo_afterUserBank (s : State) (t : Word) : (s.branchTo t).afterUserBank = false := rfl
@[simp] theorem State.branchTo_currentStores (s : State) (t : Word) : (s.branchTo t).currentStores = [] := rfl
@[simp] theorem State.branchTo_recentStores (s : State) (t : Word) : (s.branchTo t).recentStores = [] := rfl
@[simp] theorem State.branchTo_olderStores (s : State) (t : Word) : (s.branchTo t).olderStores = [] := rfl
@[simp] theorem State.branchTo_draws (s : State) (t : Word) : (s.branchTo t).draws = s.draws := rfl

/-! ### advance -/

@[simp] theorem State.advance_regs (s : State) : (s.advance).regs = s.regs := rfl
@[simp] theorem State.advance_cur (s : State) : (s.advance).cur = s.cur + BitVec.ofNat 32 s.size := rfl
@[simp] theorem State.advance_cpsr (s : State) : (s.advance).cpsr = s.cpsr := rfl
@[simp] theorem State.advance_spsrFiq (s : State) : (s.advance).spsrFiq = s.spsrFiq := rfl
@[simp] theorem State.advance_spsrIrq (s : State) : (s.advance).spsrIrq = s.spsrIrq := rfl
@[simp] theorem State.advance_spsrSvc (s : State) : (s.advance).spsrSvc = s.spsrSvc := rfl
@[simp] theorem State.advance_spsrAbt (s : State) : (s.advance).spsrAbt = s.spsrAbt := rfl
@[simp] theorem State.advance_spsrUnd (s : State) : (s.advance).spsrUnd = s.spsrUnd := rfl
@[simp] theorem State.advance_mem (s : State) : (s.advance).mem = s.mem := rfl
@[simp] theorem State.advance_plat (s : State) : (s.advance).plat = s.plat := rfl
@[simp] theorem State.advance_lines (s : State) : (s.advance).lines = s.lines := rfl
@[simp] theorem State.advance_replies (s : State) : (s.advance).replies = s.replies := rfl
@[simp] theorem State.advance_sent (s : State) : (s.advance).sent = s.sent := rfl
@[simp] theorem State.advance_pastTop (s : State) : (s.advance).pastTop = decide (2 ^ 32 ≤ s.cur.toNat + s.size) := rfl
@[simp] theorem State.advance_afterUserBank (s : State) : (s.advance).afterUserBank = false := rfl
@[simp] theorem State.advance_currentStores (s : State) : (s.advance).currentStores = [] := rfl
@[simp] theorem State.advance_recentStores (s : State) : (s.advance).recentStores = s.currentStores := rfl
@[simp] theorem State.advance_olderStores (s : State) : (s.advance).olderStores = s.recentStores := rfl
@[simp] theorem State.advance_draws (s : State) : (s.advance).draws = s.draws := rfl

/-! ### writeByte -/

@[simp] theorem State.writeByte_regs (s : State) (a : Nat) (v : Byte) : (s.writeByte a v).regs = s.regs := rfl
@[simp] theorem State.writeByte_cur (s : State) (a : Nat) (v : Byte) : (s.writeByte a v).cur = s.cur := rfl
@[simp] theorem State.writeByte_cpsr (s : State) (a : Nat) (v : Byte) : (s.writeByte a v).cpsr = s.cpsr := rfl
@[simp] theorem State.writeByte_spsrFiq (s : State) (a : Nat) (v : Byte) : (s.writeByte a v).spsrFiq = s.spsrFiq := rfl
@[simp] theorem State.writeByte_spsrIrq (s : State) (a : Nat) (v : Byte) : (s.writeByte a v).spsrIrq = s.spsrIrq := rfl
@[simp] theorem State.writeByte_spsrSvc (s : State) (a : Nat) (v : Byte) : (s.writeByte a v).spsrSvc = s.spsrSvc := rfl
@[simp] theorem State.writeByte_spsrAbt (s : State) (a : Nat) (v : Byte) : (s.writeByte a v).spsrAbt = s.spsrAbt := rfl
@[simp] theorem State.writeByte_spsrUnd (s : State) (a : Nat) (v : Byte) : (s.writeByte a v).spsrUnd = s.spsrUnd := rfl
@[simp] theorem State.writeByte_mem (s : State) (a : Nat) (v : Byte) : (s.writeByte a v).mem = s.mem.writeByte a v := rfl
@[simp] theorem State.writeByte_plat (s : State) (a : Nat) (v : Byte) : (s.writeByte a v).plat = s.plat := rfl
@[simp] theorem State.writeByte_lines (s : State) (a : Nat) (v : Byte) : (s.writeByte a v).lines = s.lines := rfl
@[simp] theorem State.writeByte_replies (s : State) (a : Nat) (v : Byte) : (s.writeByte a v).replies = s.replies := rfl
@[simp] theorem State.writeByte_sent (s : State) (a : Nat) (v : Byte) : (s.writeByte a v).sent = s.sent := rfl
@[simp] theorem State.writeByte_pastTop (s : State) (a : Nat) (v : Byte) : (s.writeByte a v).pastTop = s.pastTop := rfl
@[simp] theorem State.writeByte_afterUserBank (s : State) (a : Nat) (v : Byte) : (s.writeByte a v).afterUserBank = s.afterUserBank := rfl
@[simp] theorem State.writeByte_currentStores (s : State) (a : Nat) (v : Byte) : (s.writeByte a v).currentStores = s.currentStores ++ [(a, s.readByte a)] := rfl
@[simp] theorem State.writeByte_recentStores (s : State) (a : Nat) (v : Byte) : (s.writeByte a v).recentStores = s.recentStores := rfl
@[simp] theorem State.writeByte_olderStores (s : State) (a : Nat) (v : Byte) : (s.writeByte a v).olderStores = s.olderStores := rfl
@[simp] theorem State.writeByte_draws (s : State) (a : Nat) (v : Byte) : (s.writeByte a v).draws = s.draws := rfl

/-! ### writeHalf -/

@[simp] theorem State.writeHalf_regs (s : State) (a : Word) (v : Half) : (s.writeHalf a v).regs = s.regs := by simp only [State.writeHalf]; split <;> rfl
@[simp] theorem State.writeHalf_cur (s : State) (a : Word) (v : Half) : (s.writeHalf a v).cur = s.cur := by simp only [State.writeHalf]; split <;> rfl
@[simp] theorem State.writeHalf_cpsr (s : State) (a : Word) (v : Half) : (s.writeHalf a v).cpsr = s.cpsr := by simp only [State.writeHalf]; split <;> rfl
@[simp] theorem State.writeHalf_spsrFiq (s : State) (a : Word) (v : Half) : (s.writeHalf a v).spsrFiq = s.spsrFiq := by simp only [State.writeHalf]; split <;> rfl
@[simp] theorem State.writeHalf_spsrIrq (s : State) (a : Word) (v : Half) : (s.writeHalf a v).spsrIrq = s.spsrIrq := by simp only [State.writeHalf]; split <;> rfl
@[simp] theorem State.writeHalf_spsrSvc (s : State) (a : Word) (v : Half) : (s.writeHalf a v).spsrSvc = s.spsrSvc := by simp only [State.writeHalf]; split <;> rfl
@[simp] theorem State.writeHalf_spsrAbt (s : State) (a : Word) (v : Half) : (s.writeHalf a v).spsrAbt = s.spsrAbt := by simp only [State.writeHalf]; split <;> rfl
@[simp] theorem State.writeHalf_spsrUnd (s : State) (a : Word) (v : Half) : (s.writeHalf a v).spsrUnd = s.spsrUnd := by simp only [State.writeHalf]; split <;> rfl
@[simp] theorem State.writeHalf_plat (s : State) (a : Word) (v : Half) : (s.writeHalf a v).plat = s.plat := by simp only [State.writeHalf]; split <;> rfl
@[simp] theorem State.writeHalf_lines (s : State) (a : Word) (v : Half) : (s.writeHalf a v).lines = s.lines := by simp only [State.writeHalf]; split <;> rfl
@[simp] theorem State.writeHalf_replies (s : State) (a : Word) (v : Half) : (s.writeHalf a v).replies = s.replies := by simp only [State.writeHalf]; split <;> rfl
@[simp] theorem State.writeHalf_sent (s : State) (a : Word) (v : Half) : (s.writeHalf a v).sent = s.sent := by simp only [State.writeHalf]; split <;> rfl
@[simp] theorem State.writeHalf_pastTop (s : State) (a : Word) (v : Half) : (s.writeHalf a v).pastTop = s.pastTop := by simp only [State.writeHalf]; split <;> rfl
@[simp] theorem State.writeHalf_afterUserBank (s : State) (a : Word) (v : Half) : (s.writeHalf a v).afterUserBank = s.afterUserBank := by simp only [State.writeHalf]; split <;> rfl
@[simp] theorem State.writeHalf_recentStores (s : State) (a : Word) (v : Half) : (s.writeHalf a v).recentStores = s.recentStores := by simp only [State.writeHalf]; split <;> rfl
@[simp] theorem State.writeHalf_olderStores (s : State) (a : Word) (v : Half) : (s.writeHalf a v).olderStores = s.olderStores := by simp only [State.writeHalf]; split <;> rfl
@[simp] theorem State.writeHalf_draws (s : State) (a : Word) (v : Half) : (s.writeHalf a v).draws = s.draws := by simp only [State.writeHalf]; split <;> rfl

/-! ### writeWord -/

@[simp] theorem State.writeWord_regs (s : State) (a v : Word) : (s.writeWord a v).regs = s.regs := by simp only [State.writeWord]; split <;> rfl
@[simp] theorem State.writeWord_cur (s : State) (a v : Word) : (s.writeWord a v).cur = s.cur := by simp only [State.writeWord]; split <;> rfl
@[simp] theorem State.writeWord_cpsr (s : State) (a v : Word) : (s.writeWord a v).cpsr = s.cpsr := by simp only [State.writeWord]; split <;> rfl
@[simp] theorem State.writeWord_spsrFiq (s : State) (a v : Word) : (s.writeWord a v).spsrFiq = s.spsrFiq := by simp only [State.writeWord]; split <;> rfl
@[simp] theorem State.writeWord_spsrIrq (s : State) (a v : Word) : (s.writeWord a v).spsrIrq = s.spsrIrq := by simp only [State.writeWord]; split <;> rfl
@[simp] theorem State.writeWord_spsrSvc (s : State) (a v : Word) : (s.writeWord a v).spsrSvc = s.spsrSvc := by simp only [State.writeWord]; split <;> rfl
@[simp] theorem State.writeWord_spsrAbt (s : State) (a v : Word) : (s.writeWord a v).spsrAbt = s.spsrAbt := by simp only [State.writeWord]; split <;> rfl
@[simp] theorem State.writeWord_spsrUnd (s : State) (a v : Word) : (s.writeWord a v).spsrUnd = s.spsrUnd := by simp only [State.writeWord]; split <;> rfl
@[simp] theorem State.writeWord_plat (s : State) (a v : Word) : (s.writeWord a v).plat = s.plat := by simp only [State.writeWord]; split <;> rfl
@[simp] theorem State.writeWord_lines (s : State) (a v : Word) : (s.writeWord a v).lines = s.lines := by simp only [State.writeWord]; split <;> rfl
@[simp] theorem State.writeWord_replies (s : State) (a v : Word) : (s.writeWord a v).replies = s.replies := by simp only [State.writeWord]; split <;> rfl
@[simp] theorem State.writeWord_sent (s : State) (a v : Word) : (s.writeWord a v).sent = s.sent := by simp only [State.writeWord]; split <;> rfl
@[simp] theorem State.writeWord_pastTop (s : State) (a v : Word) : (s.writeWord a v).pastTop = s.pastTop := by simp only [State.writeWord]; split <;> rfl
@[simp] theorem State.writeWord_afterUserBank (s : State) (a v : Word) : (s.writeWord a v).afterUserBank = s.afterUserBank := by simp only [State.writeWord]; split <;> rfl
@[simp] theorem State.writeWord_recentStores (s : State) (a v : Word) : (s.writeWord a v).recentStores = s.recentStores := by simp only [State.writeWord]; split <;> rfl
@[simp] theorem State.writeWord_olderStores (s : State) (a v : Word) : (s.writeWord a v).olderStores = s.olderStores := by simp only [State.writeWord]; split <;> rfl
@[simp] theorem State.writeWord_draws (s : State) (a v : Word) : (s.writeWord a v).draws = s.draws := by simp only [State.writeWord]; split <;> rfl

/-! ### stored -/

@[simp] theorem State.stored_regs (s : State) (k : StoreKind) (a v : Word) : (s.stored k a v).regs = s.regs := by cases k <;> simp [State.stored]
@[simp] theorem State.stored_cur (s : State) (k : StoreKind) (a v : Word) : (s.stored k a v).cur = s.cur := by cases k <;> simp [State.stored]
@[simp] theorem State.stored_cpsr (s : State) (k : StoreKind) (a v : Word) : (s.stored k a v).cpsr = s.cpsr := by cases k <;> simp [State.stored]
@[simp] theorem State.stored_spsrFiq (s : State) (k : StoreKind) (a v : Word) : (s.stored k a v).spsrFiq = s.spsrFiq := by cases k <;> simp [State.stored]
@[simp] theorem State.stored_spsrIrq (s : State) (k : StoreKind) (a v : Word) : (s.stored k a v).spsrIrq = s.spsrIrq := by cases k <;> simp [State.stored]
@[simp] theorem State.stored_spsrSvc (s : State) (k : StoreKind) (a v : Word) : (s.stored k a v).spsrSvc = s.spsrSvc := by cases k <;> simp [State.stored]
@[simp] theorem State.stored_spsrAbt (s : State) (k : StoreKind) (a v : Word) : (s.stored k a v).spsrAbt = s.spsrAbt := by cases k <;> simp [State.stored]
@[simp] theorem State.stored_spsrUnd (s : State) (k : StoreKind) (a v : Word) : (s.stored k a v).spsrUnd = s.spsrUnd := by cases k <;> simp [State.stored]
@[simp] theorem State.stored_plat (s : State) (k : StoreKind) (a v : Word) : (s.stored k a v).plat = s.plat := by cases k <;> simp [State.stored]
@[simp] theorem State.stored_lines (s : State) (k : StoreKind) (a v : Word) : (s.stored k a v).lines = s.lines := by cases k <;> simp [State.stored]
@[simp] theorem State.stored_replies (s : State) (k : StoreKind) (a v : Word) : (s.stored k a v).replies = s.replies := by cases k <;> simp [State.stored]
@[simp] theorem State.stored_sent (s : State) (k : StoreKind) (a v : Word) : (s.stored k a v).sent = s.sent := by cases k <;> simp [State.stored]
@[simp] theorem State.stored_pastTop (s : State) (k : StoreKind) (a v : Word) : (s.stored k a v).pastTop = s.pastTop := by cases k <;> simp [State.stored]
@[simp] theorem State.stored_afterUserBank (s : State) (k : StoreKind) (a v : Word) : (s.stored k a v).afterUserBank = s.afterUserBank := by cases k <;> simp [State.stored]
@[simp] theorem State.stored_recentStores (s : State) (k : StoreKind) (a v : Word) : (s.stored k a v).recentStores = s.recentStores := by cases k <;> simp [State.stored]
@[simp] theorem State.stored_olderStores (s : State) (k : StoreKind) (a v : Word) : (s.stored k a v).olderStores = s.olderStores := by cases k <;> simp [State.stored]
@[simp] theorem State.stored_draws (s : State) (k : StoreKind) (a v : Word) : (s.stored k a v).draws = s.draws := by cases k <;> simp [State.stored]

/-! ### setSpsrOf -/

@[simp] theorem State.setSpsrOf_regs (s : State) (m : Mode) (p : Psr) : (s.setSpsrOf m p).regs = s.regs := by cases m <;> rfl
@[simp] theorem State.setSpsrOf_cur (s : State) (m : Mode) (p : Psr) : (s.setSpsrOf m p).cur = s.cur := by cases m <;> rfl
@[simp] theorem State.setSpsrOf_cpsr (s : State) (m : Mode) (p : Psr) : (s.setSpsrOf m p).cpsr = s.cpsr := by cases m <;> rfl
@[simp] theorem State.setSpsrOf_mem (s : State) (m : Mode) (p : Psr) : (s.setSpsrOf m p).mem = s.mem := by cases m <;> rfl
@[simp] theorem State.setSpsrOf_plat (s : State) (m : Mode) (p : Psr) : (s.setSpsrOf m p).plat = s.plat := by cases m <;> rfl
@[simp] theorem State.setSpsrOf_lines (s : State) (m : Mode) (p : Psr) : (s.setSpsrOf m p).lines = s.lines := by cases m <;> rfl
@[simp] theorem State.setSpsrOf_replies (s : State) (m : Mode) (p : Psr) : (s.setSpsrOf m p).replies = s.replies := by cases m <;> rfl
@[simp] theorem State.setSpsrOf_sent (s : State) (m : Mode) (p : Psr) : (s.setSpsrOf m p).sent = s.sent := by cases m <;> rfl
@[simp] theorem State.setSpsrOf_pastTop (s : State) (m : Mode) (p : Psr) : (s.setSpsrOf m p).pastTop = s.pastTop := by cases m <;> rfl
@[simp] theorem State.setSpsrOf_afterUserBank (s : State) (m : Mode) (p : Psr) : (s.setSpsrOf m p).afterUserBank = s.afterUserBank := by cases m <;> rfl
@[simp] theorem State.setSpsrOf_currentStores (s : State) (m : Mode) (p : Psr) : (s.setSpsrOf m p).currentStores = s.currentStores := by cases m <;> rfl
@[simp] theorem State.setSpsrOf_recentStores (s : State) (m : Mode) (p : Psr) : (s.setSpsrOf m p).recentStores = s.recentStores := by cases m <;> rfl
@[simp] theorem State.setSpsrOf_olderStores (s : State) (m : Mode) (p : Psr) : (s.setSpsrOf m p).olderStores = s.olderStores := by cases m <;> rfl
@[simp] theorem State.setSpsrOf_draws (s : State) (m : Mode) (p : Psr) : (s.setSpsrOf m p).draws = s.draws := by cases m <;> rfl

/-! ### sending -/

@[simp] theorem State.sending_regs (s : State) (cp : BitVec 4) (ws : List Word) : (s.sending cp ws).regs = s.regs := rfl
@[simp] theorem State.sending_cur (s : State) (cp : BitVec 4) (ws : List Word) : (s.sending cp ws).cur = s.cur := rfl
@[simp] theorem State.sending_cpsr (s : State) (cp : BitVec 4) (ws : List Word) : (s.sending cp ws).cpsr = s.cpsr := rfl
@[simp] theorem State.sending_spsrFiq (s : State) (cp : BitVec 4) (ws : List Word) : (s.sending cp ws).spsrFiq = s.spsrFiq := rfl
@[simp] theorem State.sending_spsrIrq (s : State) (cp : BitVec 4) (ws : List Word) : (s.sending cp ws).spsrIrq = s.spsrIrq := rfl
@[simp] theorem State.sending_spsrSvc (s : State) (cp : BitVec 4) (ws : List Word) : (s.sending cp ws).spsrSvc = s.spsrSvc := rfl
@[simp] theorem State.sending_spsrAbt (s : State) (cp : BitVec 4) (ws : List Word) : (s.sending cp ws).spsrAbt = s.spsrAbt := rfl
@[simp] theorem State.sending_spsrUnd (s : State) (cp : BitVec 4) (ws : List Word) : (s.sending cp ws).spsrUnd = s.spsrUnd := rfl
@[simp] theorem State.sending_mem (s : State) (cp : BitVec 4) (ws : List Word) : (s.sending cp ws).mem = s.mem := rfl
@[simp] theorem State.sending_plat (s : State) (cp : BitVec 4) (ws : List Word) : (s.sending cp ws).plat = s.plat := rfl
@[simp] theorem State.sending_lines (s : State) (cp : BitVec 4) (ws : List Word) : (s.sending cp ws).lines = s.lines := rfl
@[simp] theorem State.sending_replies (s : State) (cp : BitVec 4) (ws : List Word) : (s.sending cp ws).replies = s.replies := rfl
@[simp] theorem State.sending_sent (s : State) (cp : BitVec 4) (ws : List Word) : (s.sending cp ws).sent = s.sent ++ ws.map (fun w => (cp, w)) := rfl
@[simp] theorem State.sending_pastTop (s : State) (cp : BitVec 4) (ws : List Word) : (s.sending cp ws).pastTop = s.pastTop := rfl
@[simp] theorem State.sending_afterUserBank (s : State) (cp : BitVec 4) (ws : List Word) : (s.sending cp ws).afterUserBank = s.afterUserBank := rfl
@[simp] theorem State.sending_currentStores (s : State) (cp : BitVec 4) (ws : List Word) : (s.sending cp ws).currentStores = s.currentStores := rfl
@[simp] theorem State.sending_recentStores (s : State) (cp : BitVec 4) (ws : List Word) : (s.sending cp ws).recentStores = s.recentStores := rfl
@[simp] theorem State.sending_olderStores (s : State) (cp : BitVec 4) (ws : List Word) : (s.sending cp ws).olderStores = s.olderStores := rfl
@[simp] theorem State.sending_draws (s : State) (cp : BitVec 4) (ws : List Word) : (s.sending cp ws).draws = s.draws := rfl

/-! ### linesSampled -/

@[simp] theorem State.linesSampled_regs (s : State) : (s.linesSampled).regs = s.regs := rfl
@[simp] theorem State.linesSampled_cur (s : State) : (s.linesSampled).cur = s.cur := rfl
@[simp] theorem State.linesSampled_cpsr (s : State) : (s.linesSampled).cpsr = s.cpsr := rfl
@[simp] theorem State.linesSampled_spsrFiq (s : State) : (s.linesSampled).spsrFiq = s.spsrFiq := rfl
@[simp] theorem State.linesSampled_spsrIrq (s : State) : (s.linesSampled).spsrIrq = s.spsrIrq := rfl
@[simp] theorem State.linesSampled_spsrSvc (s : State) : (s.linesSampled).spsrSvc = s.spsrSvc := rfl
@[simp] theorem State.linesSampled_spsrAbt (s : State) : (s.linesSampled).spsrAbt = s.spsrAbt := rfl
@[simp] theorem State.linesSampled_spsrUnd (s : State) : (s.linesSampled).spsrUnd = s.spsrUnd := rfl
@[simp] theorem State.linesSampled_mem (s : State) : (s.linesSampled).mem = s.mem := rfl
@[simp] theorem State.linesSampled_plat (s : State) : (s.linesSampled).plat = s.plat := rfl
@[simp] theorem State.linesSampled_lines (s : State) : (s.linesSampled).lines = s.lines.tail := rfl
@[simp] theorem State.linesSampled_replies (s : State) : (s.linesSampled).replies = s.replies := rfl
@[simp] theorem State.linesSampled_sent (s : State) : (s.linesSampled).sent = s.sent := rfl
@[simp] theorem State.linesSampled_pastTop (s : State) : (s.linesSampled).pastTop = s.pastTop := rfl
@[simp] theorem State.linesSampled_afterUserBank (s : State) : (s.linesSampled).afterUserBank = s.afterUserBank := rfl
@[simp] theorem State.linesSampled_currentStores (s : State) : (s.linesSampled).currentStores = s.currentStores := rfl
@[simp] theorem State.linesSampled_recentStores (s : State) : (s.linesSampled).recentStores = s.recentStores := rfl
@[simp] theorem State.linesSampled_olderStores (s : State) : (s.linesSampled).olderStores = s.olderStores := rfl
@[simp] theorem State.linesSampled_draws (s : State) : (s.linesSampled).draws = s.draws := rfl

/-! ### started -/

@[simp] theorem State.started_regs (s : State) : (s.started).regs = s.regs := by unfold State.started; split <;> rfl
@[simp] theorem State.started_cur (s : State) : (s.started).cur = s.cur := by unfold State.started; split <;> rfl
@[simp] theorem State.started_cpsr (s : State) : (s.started).cpsr = s.cpsr := by unfold State.started; split <;> rfl
@[simp] theorem State.started_spsrFiq (s : State) : (s.started).spsrFiq = s.spsrFiq := by unfold State.started; split <;> rfl
@[simp] theorem State.started_spsrIrq (s : State) : (s.started).spsrIrq = s.spsrIrq := by unfold State.started; split <;> rfl
@[simp] theorem State.started_spsrSvc (s : State) : (s.started).spsrSvc = s.spsrSvc := by unfold State.started; split <;> rfl
@[simp] theorem State.started_spsrAbt (s : State) : (s.started).spsrAbt = s.spsrAbt := by unfold State.started; split <;> rfl
@[simp] theorem State.started_spsrUnd (s : State) : (s.started).spsrUnd = s.spsrUnd := by unfold State.started; split <;> rfl
@[simp] theorem State.started_mem (s : State) : (s.started).mem = s.mem := by unfold State.started; split <;> rfl
@[simp] theorem State.started_plat (s : State) : (s.started).plat = s.plat := by unfold State.started; split <;> rfl
@[simp] theorem State.started_lines (s : State) : (s.started).lines = s.lines := by unfold State.started; split <;> rfl
@[simp] theorem State.started_replies (s : State) : (s.started).replies = s.replies := by unfold State.started; split <;> rfl
@[simp] theorem State.started_sent (s : State) : (s.started).sent = s.sent := by unfold State.started; split <;> rfl
@[simp] theorem State.started_pastTop (s : State) : (s.started).pastTop = s.pastTop := by unfold State.started; split <;> rfl
@[simp] theorem State.started_afterUserBank (s : State) : (s.started).afterUserBank = s.afterUserBank := by unfold State.started; split <;> rfl
@[simp] theorem State.started_currentStores (s : State) : (s.started).currentStores = s.currentStores := by unfold State.started; split <;> rfl
@[simp] theorem State.started_recentStores (s : State) : (s.started).recentStores = s.recentStores := by unfold State.started; split <;> rfl
@[simp] theorem State.started_olderStores (s : State) : (s.started).olderStores = s.olderStores := by unfold State.started; split <;> rfl
@[simp] theorem State.started_draws (s : State) : (s.started).draws = if s.inWindow then s.draws + 1 else s.draws := by unfold State.started; split <;> rfl

/-! ## Modes -/

@[simp] theorem modeOfBits_bits (m : Mode) : modeOfBits m.bits = some m := by cases m <;> rfl

theorem bits_of_modeOfBits {x : BitVec 5} {m : Mode} (h : modeOfBits x = some m) : m.bits = x := by
  revert x m; decide

/-- The mode depends on CPSR.M alone. -/
theorem State.mode_congr {s t : State} (h : t.cpsr = s.cpsr) : t.mode = s.mode := by
  simp [State.mode, h]

/-- The privilege depends on CPSR.M alone. -/
theorem State.privilege_congr {s t : State} (h : t.cpsr = s.cpsr) : t.privilege = s.privilege := by
  simp [State.privilege, State.mode_congr h]

/-- An access depends on the platform alone. -/
theorem State.access_congr {s t : State} (h : t.plat = s.plat) (k : AccessKind) (p : Privilege) (a : Word) (n : Nat) :
    t.access k p a n = s.access k p a n := by
  simp [State.access, h]

/-! ## Places of registers -/

/-- Two registers of one mode, neither r15, have two places. -/
theorem regIndex_injective (m : Mode) {r q : Reg} (hr : r ≠ 15) (hq : q ≠ 15) (h : regIndex m r = regIndex m q) :
    r = q := by
  cases m <;> revert r q <;> decide

/-- r0 to r7 have one place in every mode. -/
theorem regIndex_low (m : Mode) {r : Reg} (h : r.toNat < 8) : regIndex m r = regIndex .usr r := by
  cases m <;> revert r <;> decide

theorem State.writeReg_pc (s : State) (v : Word) : s.writeReg 15 v = s := if_pos rfl

theorem State.writeReg_regs {r : Reg} (hr : r ≠ 15) (s : State) (v : Word) :
    (s.writeReg r v).regs = s.regs.set (regIndex s.mode r) v := by
  rw [State.writeReg, if_neg hr]

theorem State.readReg_pc (s : State) : s.readReg 15 = s.pcValue := if_pos rfl

theorem State.readReg_regs {r : Reg} (hr : r ≠ 15) (s : State) : s.readReg r = s.regs[regIndex s.mode r] := if_neg hr

/-- A register's value depends on its place alone. -/
theorem State.readReg_congr {r : Reg} (hr : r ≠ 15) {s t : State} (hm : t.mode = s.mode)
    (h : t.regs[regIndex s.mode r] = s.regs[regIndex s.mode r]) : t.readReg r = s.readReg r := by
  rw [State.readReg_regs hr, State.readReg_regs hr]
  simpa only [hm] using h

/-- A register written reads as the value written. -/
theorem State.readReg_writeReg_same {r : Reg} (hr : r ≠ 15) (s : State) (v : Word) : (s.writeReg r v).readReg r = v := by
  have hm : (s.writeReg r v).mode = s.mode := State.mode_congr (by simp)
  rw [State.readReg_regs hr]
  simp only [hm, State.writeReg_regs hr]
  exact Vector.getElem_set_self _

/-- A register written leaves every other place as it is. -/
theorem State.regs_writeReg_of_ne {r : Reg} (s : State) (v : Word) {k : Fin 30} (hk : k ≠ regIndex s.mode r) :
    (s.writeReg r v).regs[k] = s.regs[k] := by
  unfold State.writeReg
  split
  · rfl
  · exact Vector.getElem_set_ne (regIndex s.mode r).isLt k.isLt fun h => hk (Fin.ext h.symm)

/-- A register written leaves every other register as it is. -/
theorem State.readReg_writeReg_of_ne {r q : Reg} (s : State) (v : Word) (h : q ≠ r) :
    (s.writeReg r v).readReg q = s.readReg q := by
  have hm : (s.writeReg r v).mode = s.mode := State.mode_congr (by simp)
  by_cases hq : q = 15
  · rw [hq, State.readReg_pc, State.readReg_pc]
    simp [State.pcValue]
  · by_cases hr : r = 15
    · rw [hr, State.writeReg_pc]
    · exact State.readReg_congr hq hm (State.regs_writeReg_of_ne s v fun e => h (regIndex_injective _ hq hr e))

end Sys2Proof.Machine
end

