-- ==== Sys2Proof/Laws/Memory.lean ====
section
/-! SUPPORT. Memory keeps its canonical form, and a byte written reads as the byte written and leaves
every other as it is (10_state.md R55, 20_memory.md R64). -/

namespace Sys2Proof.Machine

/-! ## Bytes -/

/-- The canonical form entry by entry. -/
theorem Memory.wf_cons (a : Nat) (v : Byte) (m : Memory) :
    Memory.wf ((a, v) :: m) = true ↔ a < 2 ^ 32 ∧ v ≠ unlistedByte ∧ (∀ c ∈ m, a < c.1) ∧ Memory.wf m = true := by
  induction m generalizing a v with
  | nil => simp [Memory.wf]
  | cons c rest ih =>
    obtain ⟨b, x⟩ := c
    have hb := ih b x
    constructor
    · intro h
      simp only [Memory.wf, Bool.and_eq_true, decide_eq_true_eq, bne_iff_ne] at h
      obtain ⟨⟨hab, hv⟩, hw⟩ := h
      obtain ⟨hlt, -, hall, -⟩ := hb.1 hw
      refine ⟨by omega, hv, ?_, hw⟩
      intro c hc
      rcases List.mem_cons.1 hc with rfl | hc
      · exact hab
      · exact lt_trans hab (hall c hc)
    · rintro ⟨-, hv, hall, hw⟩
      simp only [Memory.wf, Bool.and_eq_true, decide_eq_true_eq, bne_iff_ne]
      exact ⟨⟨hall (b, x) (by simp), hv⟩, hw⟩

/-- An address below every listed one reads as unlisted. -/
theorem Memory.readByte_below {m : Memory} {a : Nat} (h : ∀ c ∈ m, a < c.1) : m.readByte a = unlistedByte := by
  induction m with
  | nil => rfl
  | cons c rest ih =>
    obtain ⟨b, x⟩ := c
    have hab : a < b := h (b, x) (by simp)
    rw [Memory.readByte, if_neg (by omega)]
    exact ih fun c hc => h c (by simp [hc])

/-- The byte written reads as written. -/
theorem Memory.readByte_writeByte_same {m : Memory} (hm : m.wf = true) (a : Nat) (v : Byte) :
    (m.writeByte a v).readByte a = v := by
  induction m with
  | nil => by_cases h : v = unlistedByte <;> simp [Memory.writeByte, Memory.readByte, h]
  | cons c rest ih =>
    obtain ⟨b, x⟩ := c
    obtain ⟨-, -, hall, hw⟩ := (Memory.wf_cons b x rest).1 hm
    rw [Memory.writeByte]
    split
    · split
      · rename_i hab hv
        rw [hv]
        refine Memory.readByte_below fun c hc => ?_
        rcases List.mem_cons.1 hc with rfl | hc
        · exact hab
        · exact lt_trans hab (hall c hc)
      · simp [Memory.readByte]
    · split
      · rename_i hab
        split
        · rename_i hv
          rw [hv]
          exact Memory.readByte_below (hab ▸ hall)
        · simp [Memory.readByte]
      · rename_i hab
        rw [Memory.readByte, if_neg (by omega)]
        exact ih hw

/-- Every other byte reads as before. -/
theorem Memory.readByte_writeByte_of_ne (m : Memory) {a b : Nat} (h : b ≠ a) (v : Byte) :
    (m.writeByte a v).readByte b = m.readByte b := by
  induction m with
  | nil => by_cases hv : v = unlistedByte <;> simp [Memory.writeByte, Memory.readByte, hv, h.symm]
  | cons c rest ih =>
    obtain ⟨d, x⟩ := c
    rw [Memory.writeByte]
    split
    · split
      · rfl
      · rw [Memory.readByte, if_neg h.symm]
    · split
      · rename_i had
        subst had
        split
        · rw [Memory.readByte, if_neg h.symm]
        · rw [Memory.readByte, if_neg h.symm, Memory.readByte, if_neg h.symm]
      · rw [Memory.readByte, Memory.readByte, ih]

/-- The entries after a write lie where the entries before did, or at the address written. -/
theorem Memory.mem_writeByte {m : Memory} {a : Nat} {v : Byte} {c : Host.Cell} (h : c ∈ m.writeByte a v) :
    c.1 = a ∨ c ∈ m := by
  induction m with
  | nil =>
    rw [Memory.writeByte] at h
    split at h
    · simp at h
    · rw [List.mem_singleton] at h
      exact .inl (by rw [h])
  | cons d rest ih =>
    obtain ⟨b, x⟩ := d
    rw [Memory.writeByte] at h
    split at h
    · split at h
      · exact .inr h
      · rcases List.mem_cons.1 h with rfl | h
        · exact .inl rfl
        · exact .inr h
    · split at h
      · split at h
        · exact .inr (by simp [h])
        · rcases List.mem_cons.1 h with rfl | h
          · exact .inl rfl
          · exact .inr (by simp [h])
      · rcases List.mem_cons.1 h with rfl | h
        · exact .inr (by simp)
        · rcases ih h with h | h
          · exact .inl h
          · exact .inr (by simp [h])

/-- A write keeps the canonical form. -/
theorem Memory.wf_writeByte {m : Memory} (hm : m.wf = true) {a : Nat} (ha : a < 2 ^ 32) (v : Byte) :
    (m.writeByte a v).wf = true := by
  induction m with
  | nil =>
    rw [Memory.writeByte]
    split
    · rfl
    · rename_i h
      exact (Memory.wf_cons a v []).2 ⟨ha, h, by simp, rfl⟩
  | cons c rest ih =>
    obtain ⟨b, x⟩ := c
    obtain ⟨hb, hx, hall, hw⟩ := (Memory.wf_cons b x rest).1 hm
    rw [Memory.writeByte]
    split
    · split
      · exact hm
      · rename_i hab hv
        refine (Memory.wf_cons a v _).2 ⟨ha, hv, fun c hc => ?_, hm⟩
        rcases List.mem_cons.1 hc with rfl | hc
        · exact hab
        · exact lt_trans hab (hall c hc)
    · split
      · rename_i hab
        split
        · exact hw
        · rename_i hv
          exact (Memory.wf_cons a v _).2 ⟨ha, hv, hab ▸ hall, hw⟩
      · rename_i h1 h2
        refine (Memory.wf_cons b x _).2 ⟨hb, hx, fun c hc => ?_, ih hw⟩
        rcases Memory.mem_writeByte hc with h | h
        · omega
        · exact hall c h

/-- The memory of reset has the canonical form. -/
theorem State.reset_mem_wf : State.reset.mem.wf = true := rfl

/-! ## Words and halfwords -/

theorem wordAligned_toNat (a : Word) : (wordAligned a).toNat = a.toNat / 4 * 4 := by
  unfold wordAligned
  have h : a &&& 0xFFFFFFFC#32 = (a >>> 2) <<< 2 := by
    ext i hi
    simp only [BitVec.getElem_and, BitVec.getElem_shiftLeft]
    interval_cases i <;> simp [← BitVec.getLsbD_eq_getElem]
  rw [h]
  simp only [BitVec.toNat_shiftLeft, BitVec.toNat_ushiftRight, Nat.shiftRight_eq_div_pow, Nat.shiftLeft_eq]
  have := a.isLt
  omega

theorem halfAligned_toNat (a : Word) : (halfAligned a).toNat = a.toNat / 2 * 2 := by
  unfold halfAligned
  have h : a &&& 0xFFFFFFFE#32 = (a >>> 1) <<< 1 := by
    ext i hi
    simp only [BitVec.getElem_and, BitVec.getElem_shiftLeft]
    interval_cases i <;> simp [← BitVec.getLsbD_eq_getElem]
  rw [h]
  simp only [BitVec.toNat_shiftLeft, BitVec.toNat_ushiftRight, Nat.shiftRight_eq_div_pow, Nat.shiftLeft_eq]
  have := a.isLt
  omega

/-- The four bytes of a word store end below the top of the address space. -/
theorem wordAligned_lt (a : Word) : (wordAligned a).toNat + 3 < 2 ^ 32 := by
  rw [wordAligned_toNat]
  have := a.isLt
  omega

/-- A word store changes its four bytes alone. -/
theorem State.readByte_writeWord_of_ne (s : State) (a v : Word) {b : Nat} (h : b < a.toNat ∨ a.toNat + 4 ≤ b) :
    (s.writeWord a v).readByte b = s.readByte b := by
  simp only [State.writeWord, State.readByte]
  split <;>
    simp only [State.writeByte_mem] <;>
    rw [Memory.readByte_writeByte_of_ne _ (by omega), Memory.readByte_writeByte_of_ne _ (by omega),
      Memory.readByte_writeByte_of_ne _ (by omega), Memory.readByte_writeByte_of_ne _ (by omega)]

/-- A halfword store changes its two bytes alone. -/
theorem State.readByte_writeHalf_of_ne (s : State) (a : Word) (v : Half) {b : Nat} (h : b < a.toNat ∨ a.toNat + 2 ≤ b) :
    (s.writeHalf a v).readByte b = s.readByte b := by
  simp only [State.writeHalf, State.readByte]
  split <;>
    simp only [State.writeByte_mem] <;>
    rw [Memory.readByte_writeByte_of_ne _ (by omega), Memory.readByte_writeByte_of_ne _ (by omega)]

/-- A word store keeps the canonical form. -/
theorem State.wf_writeWord {s : State} (hs : s.mem.wf = true) {a : Word} (ha : a.toNat + 3 < 2 ^ 32) (v : Word) :
    (s.writeWord a v).mem.wf = true := by
  simp only [State.writeWord]
  split <;> simp only [State.writeByte_mem] <;>
    exact Memory.wf_writeByte (Memory.wf_writeByte (Memory.wf_writeByte (Memory.wf_writeByte hs (by omega) _)
      (by omega) _) (by omega) _) (by omega) _

/-- A halfword store keeps the canonical form. -/
theorem State.wf_writeHalf {s : State} (hs : s.mem.wf = true) {a : Word} (ha : a.toNat + 1 < 2 ^ 32) (v : Half) :
    (s.writeHalf a v).mem.wf = true := by
  simp only [State.writeHalf]
  split <;> simp only [State.writeByte_mem] <;>
    exact Memory.wf_writeByte (Memory.wf_writeByte hs (by omega) _) (by omega) _

/-- The bytes of a word put together again are the word. -/
theorem word_of_bytes (v : Word) :
    v.extractLsb' 24 8 ++ v.extractLsb' 16 8 ++ v.extractLsb' 8 8 ++ v.extractLsb' 0 8 = v := by
  ext i hi
  simp only [BitVec.getElem_append, BitVec.getElem_extractLsb']
  interval_cases i <;> simp [BitVec.getLsbD_eq_getElem]

/-- The bytes of a halfword put together again are the halfword. -/
theorem half_of_bytes (v : Half) : v.extractLsb' 8 8 ++ v.extractLsb' 0 8 = v := by
  ext i hi
  simp only [BitVec.getElem_append, BitVec.getElem_extractLsb']
  interval_cases i <;> simp [BitVec.getLsbD_eq_getElem]

/-- Two bytes written one after the other read as written. -/
theorem Memory.readByte_writeTwo {m : Memory} (hm : m.wf = true) {a : Nat} (ha : a < 2 ^ 32) (x y : Byte) :
    ((m.writeByte a x).writeByte (a + 1) y).readByte a = x ∧
    ((m.writeByte a x).writeByte (a + 1) y).readByte (a + 1) = y := by
  refine ⟨?_, Memory.readByte_writeByte_same (Memory.wf_writeByte hm ha x) _ _⟩
  rw [Memory.readByte_writeByte_of_ne _ (by omega), Memory.readByte_writeByte_same hm]

/-- A halfword stored reads as the halfword stored, in either byte order. -/
theorem State.readHalf_writeHalf_same {s : State} (hs : s.mem.wf = true) (a : Word) (v : Half) :
    (s.writeHalf a v).readHalf a = v := by
  have h := Memory.readByte_writeTwo hs a.isLt
  simp only [State.writeHalf, State.readHalf, State.readByte]
  split <;> rename_i hb <;>
    simp only [State.writeByte_mem, State.writeByte_plat, hb, if_true, Nat.add_zero, (h _ _).1, (h _ _).2] <;>
    exact half_of_bytes v

/-- A word stored reads as the word stored, in either byte order. -/
theorem State.readWord_writeWord_same {s : State} (hs : s.mem.wf = true) {a : Word} (ha : a.toNat + 3 < 2 ^ 32)
    (v : Word) : (s.writeWord a v).readWord a = v := by
  have h : ∀ x y z w : Byte,
      let m := (((s.mem.writeByte a.toNat x).writeByte (a.toNat + 1) y).writeByte (a.toNat + 2) z).writeByte
        (a.toNat + 3) w
      m.readByte a.toNat = x ∧ m.readByte (a.toNat + 1) = y ∧ m.readByte (a.toNat + 2) = z ∧
        m.readByte (a.toNat + 3) = w := by
    intro x y z w
    have two := Memory.readByte_writeTwo hs a.isLt x y
    have h2 := Memory.wf_writeByte (Memory.wf_writeByte hs a.isLt x) (show a.toNat + 1 < 2 ^ 32 by omega) y
    have next := Memory.readByte_writeTwo h2 (show a.toNat + 2 < 2 ^ 32 by omega) z w
    refine ⟨?_, ?_, next.1, next.2⟩ <;>
      rw [Memory.readByte_writeByte_of_ne _ (by omega), Memory.readByte_writeByte_of_ne _ (by omega)]
    · exact two.1
    · exact two.2
  simp only [State.writeWord, State.readWord, State.readByte]
  split <;> rename_i hb <;>
    simp only [State.writeByte_mem, State.writeByte_plat, hb, if_true, Nat.add_zero, (h _ _ _ _).1,
      (h _ _ _ _).2.1, (h _ _ _ _).2.2.1, (h _ _ _ _).2.2.2] <;>
    exact word_of_bytes v

/-- A word depends on its four bytes and the byte order. -/
theorem State.readWord_congr {s t : State} (hp : t.plat = s.plat) (a : Word)
    (h : ∀ k, k < 4 → t.readByte (a.toNat + k) = s.readByte (a.toNat + k)) : t.readWord a = s.readWord a := by
  simp only [State.readWord, hp, h 0 (by omega), h 1 (by omega), h 2 (by omega), h 3 (by omega)]

/-- A word at another aligned address is left as it was. -/
theorem State.readWord_writeWord_of_ne (s : State) {a b : Word} (h : wordAligned a ≠ wordAligned b) (v : Word) :
    (s.writeWord (wordAligned a) v).readWord (wordAligned b) = s.readWord (wordAligned b) := by
  have hne : (wordAligned a).toNat ≠ (wordAligned b).toNat := fun e => h (BitVec.eq_of_toNat_eq e)
  rw [wordAligned_toNat, wordAligned_toNat] at hne
  refine State.readWord_congr (by simp) _ fun k hk => State.readByte_writeWord_of_ne _ _ _ ?_
  rw [wordAligned_toNat, wordAligned_toNat]
  omega

/-! ## What a store puts on record (20_memory.md R81) -/

/-- A word store puts what its four bytes held on record, the lowest first. -/
theorem State.currentStores_writeWord (s : State) (a v : Word) :
    (s.writeWord a v).currentStores =
      s.currentStores ++ (List.range 4).map fun k => (a.toNat + k, s.readByte (a.toNat + k)) := by
  simp only [State.writeWord, State.readByte]
  split <;>
    simp [State.readByte, List.range_succ, Memory.readByte_writeByte_of_ne]

/-- A halfword store puts what its two bytes held on record, the lower first. -/
theorem State.currentStores_writeHalf (s : State) (a : Word) (v : Half) :
    (s.writeHalf a v).currentStores =
      s.currentStores ++ (List.range 2).map fun k => (a.toNat + k, s.readByte (a.toNat + k)) := by
  simp only [State.writeHalf, State.readByte]
  split <;>
    simp [State.readByte, List.range_succ, Memory.readByte_writeByte_of_ne]

/-! ## Stores -/

/-- A store of any kind keeps the canonical form, at an address its check allows. -/
theorem State.wf_stored {s : State} (hs : s.mem.wf = true) {k : StoreKind} {a : Word}
    (ha : oddRefusal k.size a = none) (v : Word) : (s.stored k a v).mem.wf = true := by
  cases k with
  | word => exact State.wf_writeWord hs (wordAligned_lt a) v
  | byte => exact Memory.wf_writeByte hs a.isLt _
  | half =>
    refine State.wf_writeHalf hs ?_ _
    have h0 : a.getLsbD 0 = false := by simpa [oddRefusal, StoreKind.size] using ha
    have h2 : a.toNat % 2 = 0 := by
      have := h0
      simp only [BitVec.getLsbD, Nat.testBit_zero, decide_eq_false_iff_not] at this
      omega
    have := a.isLt
    omega

end Sys2Proof.Machine
end

