-- ==== Sys2Proof/Laws/Outcomes.lean ====
section
/-! SUPPORT. What each shared operation can answer: if it answers a next state, then one of the cases
named here holds. -/

namespace Sys2Proof.Machine

/-! ## Conditions, refusals and the program counter -/

/-- An instruction whose condition passes is its body. -/
theorem conditional_pass {c : Cond} {s : State} (h : condHolds c s.cpsr = true) (body : Result) :
    conditional c s body = body := if_pos h

/-- An instruction whose condition fails only advances. -/
theorem conditional_fail {c : Cond} {s : State} (h : condHolds c s.cpsr = false) (body : Result) :
    conditional c s body = .next s.advance := if_neg (by simp [h])

theorem conditional_next {c : Cond} {s t : State} {body : Result} (h : conditional c s body = .next t) :
    (condHolds c s.cpsr = true ∧ body = .next t) ∨ (condHolds c s.cpsr = false ∧ t = s.advance) := by
  by_cases hc : condHolds c s.cpsr = true
  · exact .inl ⟨hc, by rwa [conditional_pass hc] at h⟩
  · have hf : condHolds c s.cpsr = false := by simpa using hc
    rw [conditional_fail hf] at h
    exact .inr ⟨hf, (Host.Outcome.next.inj h).symm⟩

theorem guarded_next {r : Option Refusal} {t : State} {body : Result} (h : guarded r body = .next t) :
    r = none ∧ body = .next t := by
  cases r with
  | none => exact ⟨rfl, h⟩
  | some x => cases h

theorem jumpExact_next {a : Word} {s t : State} (h : jumpExact a s = .next t) :
    a.extractLsb' 0 2 = 0#2 ∧ t = s.branchTo a := by
  unfold jumpExact at h
  split at h
  · exact ⟨‹_›, (Host.Outcome.next.inj h).symm⟩
  · cases h

theorem exchangeTo_next {a : Word} {s t : State} (h : exchangeTo a s = .next t) :
    (a.getLsbD 0 = true ∧ t = (s.withCpsr { s.cpsr with t := true }).branchTo (halfAligned a)) ∨
    (a.getLsbD 0 = false ∧ a.getLsbD 1 = false ∧ t = (s.withCpsr { s.cpsr with t := false }).branchTo a) := by
  unfold exchangeTo at h
  split at h
  · exact .inl ⟨‹_›, (Host.Outcome.next.inj h).symm⟩
  · split at h
    · cases h
    · rename_i h0 h1
      exact .inr ⟨by simpa using h0, by simpa using h1, (Host.Outcome.next.inj h).symm⟩

/-! ## Exceptions -/

@[simp] theorem enterException_cpsr (e : Exception) (ret : Word) (s : State) :
    (enterException e ret s).cpsr = e.status s.cpsr := rfl
@[simp] theorem enterException_cur (e : Exception) (ret : Word) (s : State) :
    (enterException e ret s).cur = e.vector := rfl
@[simp] theorem enterException_mem (e : Exception) (ret : Word) (s : State) :
    (enterException e ret s).mem = s.mem := by simp [enterException]
@[simp] theorem enterException_plat (e : Exception) (ret : Word) (s : State) :
    (enterException e ret s).plat = s.plat := by simp [enterException]
@[simp] theorem enterException_lines (e : Exception) (ret : Word) (s : State) :
    (enterException e ret s).lines = s.lines := by simp [enterException]
@[simp] theorem enterException_replies (e : Exception) (ret : Word) (s : State) :
    (enterException e ret s).replies = s.replies := by simp [enterException]
@[simp] theorem enterException_sent (e : Exception) (ret : Word) (s : State) :
    (enterException e ret s).sent = s.sent := by simp [enterException]
@[simp] theorem enterException_regs (e : Exception) (ret : Word) (s : State) :
    (enterException e ret s).regs = s.regs.set (regIndex e.mode 14) ret := by simp [enterException]

/-- The mode an exception enters has an SPSR, which holds the old status. -/
theorem enterException_spsr (e : Exception) (ret : Word) (s : State) :
    (enterException e ret s).spsrOf e.mode = some s.cpsr := by cases e <;> rfl

/-- An exception an instruction raises is taken, unless it would write r14 of the mode right after LDM (2) or
STM (2). -/
theorem raised_next {e : Exception} {take : State → State} {s t : State} (h : raised e take s = .next t) :
    ¬ (s.afterUserBank = true ∧ s.mode = e.mode) ∧ t = take s := by
  obtain ⟨hr, h⟩ := guarded_next h
  refine ⟨?_, (Host.Outcome.next.inj h).symm⟩
  rintro ⟨ha, hm⟩
  simp [ha, hm] at hr

/-- It is taken. -/
theorem raised_taken {e : Exception} {s : State} (h : ¬ (s.afterUserBank = true ∧ s.mode = e.mode))
    (take : State → State) : raised e take s = .next (take s) := by
  have hr : (s.afterUserBank && s.mode == e.mode) = false := by
    rw [Bool.eq_false_iff]
    intro hb
    exact h (by simpa using hb)
  simp [raised, hr, guarded]

/-- It is refused. -/
theorem raised_refused {e : Exception} {s : State} (ha : s.afterUserBank = true) (hm : s.mode = e.mode)
    (take : State → State) : raised e take s = .refused .bankedAfterUserBank := by
  simp [raised, ha, hm, guarded]

/-- The entry of an interrupt is that of the exception, with a User-bank transfer just before not over. -/
theorem interrupted_eq (e : Exception) (s : State) :
    interrupted e s = { enterException e (s.cur + 4) s with afterUserBank := s.afterUserBank } := rfl

/-- After an exception return: the status is the SPSR of the mode left, a legal mode, and the pc as its T
says. -/
theorem exceptionReturn_next {a : Word} {s t : State} (h : exceptionReturn a s = .next t) :
    ∃ p, s.spsrOf s.mode = some p ∧ modeOfBits p.m ≠ none ∧
      ((p.t = true ∧ t = (s.withCpsr p).branchTo (halfAligned a)) ∨
       (p.t = false ∧ a.extractLsb' 0 2 = 0#2 ∧ t = (s.withCpsr p).branchTo a)) := by
  unfold exceptionReturn at h
  split at h
  · cases h
  · rename_i p hp
    split at h
    · cases h
    · rename_i hm
      refine ⟨p, hp, hm, ?_⟩
      split at h
      · rename_i ht
        exact .inl ⟨ht, (Host.Outcome.next.inj h).symm⟩
      · rename_i ht
        obtain ⟨ha, rfl⟩ := jumpExact_next h
        exact .inr ⟨by simpa using ht, ha, rfl⟩

/-! ## Data processing -/

/-- A data-processing instruction advances, jumps, or returns from an exception. -/
theorem dataProcess_next {op : AluOp} {f : Bool} {rn rd : Reg} {o : Shifted} {s t : State}
    (h : dataProcess op f rn rd o s = .next t) :
    let r := alu op (s.readReg rn) o.value o.carry s.cpsr.c
    (op.compares = true ∧ t = (s.withCpsr (s.cpsr.withResult r)).advance) ∨
    (op.compares = false ∧ rd = 15 ∧ f = true ∧ exceptionReturn r.value s = .next t) ∨
    (op.compares = false ∧ rd = 15 ∧ f = false ∧ jumpExact r.value s = .next t) ∨
    (op.compares = false ∧ rd ≠ 15 ∧
      t = ((if f then s.withCpsr (s.cpsr.withResult r) else s).writeReg rd r.value).advance) := by
  intro r
  unfold dataProcess at h
  simp only at h
  split at h
  · exact .inl ⟨‹_›, (Host.Outcome.next.inj h).symm⟩
  · rename_i hc
    have hc : op.compares = false := by simpa using hc
    split at h
    · rename_i hd
      split at h
      · rename_i hf
        exact .inr (.inl ⟨hc, hd, hf, h⟩)
      · rename_i hf
        exact .inr (.inr (.inl ⟨hc, hd, by simpa using hf, h⟩))
    · rename_i hd
      exact .inr (.inr (.inr ⟨hc, hd, (Host.Outcome.next.inj h).symm⟩))

/-! ## Single transfers -/

/-- A load answers a Data Abort with the base written back, or the value read, in the pc or in `rd`. -/
theorem load_next {k : LoadKind} {p : Privilege} {rn rd : Reg} {a : Address} {s t : State}
    (h : load k p rn rd a s = .next t) :
    oddRefusal k.size a.address = none ∧
    ((s.access .read p (busAddress k.size a.address) k.size = .aborted ∧
        t = takeDataAbort (s.writtenBack rn a.writeBack)) ∨
     (s.access .read p (busAddress k.size a.address) k.size = .granted ∧ rd = 15 ∧
        t = (s.writtenBack rn a.writeBack).branchTo (wordAligned (s.loaded k a.address))) ∨
     (s.access .read p (busAddress k.size a.address) k.size = .granted ∧ rd ≠ 15 ∧
        t = ((s.writtenBack rn a.writeBack).writeReg rd (s.loaded k a.address)).advance)) := by
  obtain ⟨ho, h⟩ := guarded_next h
  refine ⟨ho, ?_⟩
  split at h
  · cases h
  · rename_i ha
    exact .inl ⟨ha, (raised_next h).2⟩
  · rename_i ha
    simp only at h
    split at h
    · rename_i hd
      exact .inr (.inl ⟨ha, hd, (Host.Outcome.next.inj h).symm⟩)
    · rename_i hd
      exact .inr (.inr ⟨ha, hd, (Host.Outcome.next.inj h).symm⟩)

/-- A store answers a Data Abort with the base written back and memory as it was, or the value stored. -/
theorem store_next {k : StoreKind} {p : Privilege} {rn : Reg} {v : Word} {a : Address} {s t : State}
    (h : store k p rn v a s = .next t) :
    oddRefusal k.size a.address = none ∧
    ((s.access .write p (busAddress k.size a.address) k.size = .aborted ∧
        t = takeDataAbort (s.writtenBack rn a.writeBack)) ∨
     (s.access .write p (busAddress k.size a.address) k.size = .granted ∧
        t = ((s.stored k a.address v).writtenBack rn a.writeBack).advance)) := by
  obtain ⟨ho, h⟩ := guarded_next h
  refine ⟨ho, ?_⟩
  split at h
  · cases h
  · rename_i ha
    exact .inl ⟨ha, (raised_next h).2⟩
  · rename_i ha
    exact .inr ⟨ha, (Host.Outcome.next.inj h).symm⟩

/-! ## Block transfers -/

/-- A block load answers a Data Abort after the words read before it, or ends with all of them. -/
theorem loadBlock_next {rn : Reg} {base a : Word} {rs : List Reg} {wb : Option Word}
    {place : State → List (Reg × Word) → State} {finish : Option Word → State → Result} {s t : State}
    (h : loadBlock rn base a rs wb place finish s = .next t) :
    let read := readWords s.privilege s a rs.length
    (read.2 = .aborted ∧ t = takeDataAbort (abortedLoad rn base wb (place s (rs.zip read.1)))) ∨
    (read.2 = .granted ∧
      finish (loadedPc (rs.zip read.1)) (place (s.writtenBack rn wb) (rs.zip read.1)) = .next t) := by
  intro read
  unfold loadBlock at h
  simp only at h
  split at h
  · cases h
  · rename_i hr
    exact .inl ⟨hr, (raised_next h).2⟩
  · rename_i hr
    exact .inr ⟨hr, h⟩

/-- When every word was granted, there are as many words as asked for. -/
theorem readWords_length {p : Privilege} {s : State} {a : Word} {n : Nat} (h : (readWords p s a n).2 = .granted) :
    (readWords p s a n).1.length = n := by
  induction n generalizing a with
  | zero => rfl
  | succ k ih =>
    unfold readWords at h ⊢
    split at h
    · simp only [List.length_cons, Nat.add_right_cancel_iff]
      exact ih h
    · rename_i hg
      exact absurd h (by simpa using hg)

/-- The k-th word of a granted block is the word at the k-th address. -/
theorem readWords_getElem {p : Privilege} {s : State} {a : Word} {n : Nat} (h : (readWords p s a n).2 = .granted)
    (k : Nat) (hk : k < n) :
    (readWords p s a n).1[k]? = some (s.readWord (wordAligned (a + blockBytes k))) := by
  induction n generalizing a k with
  | zero => omega
  | succ m ih =>
    unfold readWords at h ⊢
    split at h
    · cases k with
      | zero => simp [blockBytes]
      | succ j =>
        have e : a + 4 + blockBytes j = a + blockBytes (j + 1) := by
          rw [BitVec.add_assoc]
          congr 1
          apply BitVec.eq_of_toNat_eq
          have four : (4 : Word).toNat = 4 := rfl
          simp only [blockBytes, BitVec.toNat_add, BitVec.toNat_ofNat, four]
          omega
        simpa only [List.getElem?_cons_succ, e] using ih h j (by omega)
    · rename_i hg
      exact absurd h (by simpa using hg)

/-- What a block store keeps, whether it aborts or not: all but memory and the log of stores. -/
theorem writeBlock_kept {p : Privilege} {s t : State} {a : Word} {vs : List Word} {b : Bool}
    (h : writeBlock p s a vs = some (t, b)) :
    t = { s with mem := t.mem, currentStores := t.currentStores } ∧ (s.mem.wf = true → t.mem.wf = true) := by
  induction vs generalizing s a b with
  | nil =>
    obtain ⟨rfl, -⟩ := Prod.mk.inj (Option.some.inj h)
    exact ⟨rfl, id⟩
  | cons v rest ih =>
    unfold writeBlock at h
    split at h
    · obtain ⟨e, hw⟩ := ih h
      refine ⟨?_, fun hs => hw (State.wf_writeWord hs (wordAligned_lt a) v)⟩
      rw [e]
      simp only [State.writeWord]
      split <;> rfl
    · obtain ⟨⟨u, c⟩, hu, e⟩ := Option.map_eq_some_iff.1 h
      obtain ⟨rfl, -⟩ := Prod.mk.inj e
      exact ih hu
    · cases h

/-- A block store answers a Data Abort after all the words that could be written, or ends. -/
theorem storeBlock_next {rn : Reg} {a : Word} {vs : List Word} {wb : Option Word} {s t : State}
    (h : storeBlock rn a vs wb s = .next t) :
    ∃ u b, writeBlock s.privilege s a vs = some (u, b) ∧
      t = if b then takeDataAbort (u.writtenBack rn wb) else (u.writtenBack rn wb).advance := by
  unfold storeBlock at h
  split at h
  · cases h
  · rename_i u b hu
    refine ⟨u, b, hu, ?_⟩
    simp only at h
    split at h <;> rename_i hb <;> simp only [hb]
    · exact (raised_next h).2
    · exact (Host.Outcome.next.inj h).symm

/-! ## Coprocessor instructions -/

/-- A coprocessor instruction: not executed, Undefined Instruction, a wait, or accepted. -/
theorem offered_next {c : Cond} {cp : BitVec 4} {r : Option Refusal} {f : Word → List Word → State → Result}
    {s t : State} (h : offered c cp r f s = .next t) :
    (condHolds c s.cpsr = false ∧ t = s.advance) ∨
    (condHolds c s.cpsr = true ∧ cp ≠ 14 ∧
      ((s.plat.coprocs.contains cp = false ∧ t = takeUndefined s) ∨
       (s.plat.coprocs.contains cp = true ∧ r = none ∧
         ((s.replies = [] ∧ t = s) ∨
          (∃ rest, s.replies = .busy :: rest ∧ t = { s with replies := rest }) ∨
          (∃ w ws rest, s.replies = .accept w ws :: rest ∧ f w ws { s with replies := rest } = .next t))))) := by
  rcases conditional_next h with ⟨hc, h⟩ | ⟨hc, rfl⟩
  · refine .inr ⟨hc, ?_⟩
    split at h
    · cases h
    · rename_i hcp
      refine ⟨hcp, ?_⟩
      split at h
      · rename_i hp
        exact .inl ⟨by simpa using hp, (raised_next h).2⟩
      · rename_i hp
        obtain ⟨hr, h⟩ := guarded_next h
        refine .inr ⟨by simpa using hp, hr, ?_⟩
        split at h
        · rename_i he
          exact .inl ⟨he, (Host.Outcome.next.inj h).symm⟩
        · rename_i rest he
          exact .inr (.inl ⟨rest, he, (Host.Outcome.next.inj h).symm⟩)
        · rename_i w ws rest he
          exact .inr (.inr ⟨w, ws, rest, he, h⟩)
  · exact .inl ⟨hc, rfl⟩

end Sys2Proof.Machine
end

