-- ==== Sys2Proof/Tests/Slice0.lean ====
section
/-! SUPPORT. Tests: the check of well-formedness, the decoding of words written out from the encodings, one step
on small states, and states that meet what each statement assumes. The values expected come from the tables and
vectors of spec/, not from the model. -/

namespace Sys2Proof.Tests

open Sys2Proof Sys2Proof.Machine

/-! ## Well-formedness -/

/-- A halfword just outside each range of R118 is no undefined-space instruction, and 0x0000 is LSL. -/
theorem test_wellFormed_refuses :
    (Instr.tUndefinedSpace 0xE7FF).wellFormed = false ∧ (Instr.tUndefinedSpace 0xF000).wellFormed = false ∧
    (Instr.tUndefinedSpace 0xB0FF).wellFormed = false ∧ (Instr.tUndefinedSpace 0xB400).wellFormed = false ∧
    (Instr.tUndefinedSpace 0xB5FF).wellFormed = false ∧ (Instr.tUndefinedSpace 0xBC00).wellFormed = false ∧
    (Instr.tUndefinedSpace 0xBDFF).wellFormed = false ∧ (Instr.tUndefinedSpace 0xC000).wellFormed = false ∧
    (Instr.tUndefinedSpace 0x0000).wellFormed = false := by
  decide

/-! ## Decoding -/

/-- Words the decoder refuses, by name: condition 1111 (R94), a multiply with SBZ bits set (R100), the
unallocated load and store doubleword (R117), BX without its SBO bits (R99). -/
theorem test_decode_refuses :
    (decode (.arm 0xF3A00001#32)).toOption = none ∧ (decode (.arm 0xE0001291#32)).toOption = none ∧
    (decode (.arm 0xE1C100D0#32)).toOption = none ∧ (decode (.arm 0xE1200010#32)).toOption = none := by
  decide

/-- Words written out field by field from R96. -/
theorem test_decode_data_and_to_rsb :
    decode (.arm 0xE2173B0D#32) = .ok (.andImm .al true 7 3 11 13) ∧
    decode (.arm 0x0009E24A#32) = .ok (.andShImm .eq false 9 14 4 .asr 10) ∧
    decode (.arm 0x1009F432#32) = .ok (.andShReg .ne false 9 15 4 .lsr 2) ∧
    decode (.arm 0x22327418#32) = .ok (.eorImm .cs true 2 7 4 24) ∧
    decode (.arm 0x303AE26B#32) = .ok (.eorShImm .cc true 10 14 4 .ror 11) ∧
    decode (.arm 0x8027A17E#32) = .ok (.eorShReg .hi false 7 10 1 .ror 14) ∧
    decode (.arm 0xA247538B#32) = .ok (.subImm .ge false 7 5 3 139) ∧
    decode (.arm 0xD045A962#32) = .ok (.subShImm .le false 5 10 18 .ror 2) ∧
    decode (.arm 0xE042697A#32) = .ok (.subShReg .al false 2 6 9 .ror 10) ∧
    decode (.arm 0x0264A8AF#32) = .ok (.rsbImm .eq false 4 10 8 175) ∧
    decode (.arm 0x1076D7E8#32) = .ok (.rsbShImm .ne true 6 13 15 .ror 8) ∧
    decode (.arm 0x20745D72#32) = .ok (.rsbShReg .cs true 4 5 13 .ror 2) := by
  decide

/-- Words written out field by field from R96. -/
theorem test_decode_data_add_to_rsc :
    decode (.arm 0x32989F58#32) = .ok (.addImm .cc true 8 9 15 88) ∧
    decode (.arm 0x809A51CD#32) = .ok (.addShImm .hi true 10 5 3 .asr 13) ∧
    decode (.arm 0xA09F385B#32) = .ok (.addShReg .ge true 15 3 8 .asr 11) ∧
    decode (.arm 0xD2A9DACB#32) = .ok (.adcImm .le false 9 13 10 203) ∧
    decode (.arm 0xE0BC6A4A#32) = .ok (.adcShImm .al true 12 6 20 .asr 10) ∧
    decode (.arm 0x00BE257B#32) = .ok (.adcShReg .eq true 14 2 5 .ror 11) ∧
    decode (.arm 0x12CC15A6#32) = .ok (.sbcImm .ne false 12 1 5 166) ∧
    decode (.arm 0x20DC56E6#32) = .ok (.sbcShImm .cs true 12 5 13 .ror 6) ∧
    decode (.arm 0x30C68334#32) = .ok (.sbcShReg .cc false 6 8 3 .lsr 4) ∧
    decode (.arm 0x82FC3466#32) = .ok (.rscImm .hi true 12 3 4 102) ∧
    decode (.arm 0xA0FEF847#32) = .ok (.rscShImm .ge true 14 15 16 .asr 7) ∧
    decode (.arm 0xD0F3FE59#32) = .ok (.rscShReg .le true 3 15 14 .asr 9) := by
  decide

/-- Words written out field by field from R96. -/
theorem test_decode_data_tst_to_cmn :
    decode (.arm 0xE3150C6B#32) = .ok (.tstImm .al 5 12 107) ∧
    decode (.arm 0x01160B44#32) = .ok (.tstShImm .eq 6 22 .asr 4) ∧
    decode (.arm 0x11130234#32) = .ok (.tstShReg .ne 3 2 .lsr 4) ∧
    decode (.arm 0x233B047D#32) = .ok (.teqImm .cs 11 4 125) ∧
    decode (.arm 0x313E09A5#32) = .ok (.teqShImm .cc 14 19 .lsr 5) ∧
    decode (.arm 0x81350159#32) = .ok (.teqShReg .hi 5 1 .asr 9) ∧
    decode (.arm 0xA3560A91#32) = .ok (.cmpImm .ge 6 10 145) ∧
    decode (.arm 0xD1560FAC#32) = .ok (.cmpShImm .le 6 31 .lsr 12) ∧
    decode (.arm 0xE15E097B#32) = .ok (.cmpShReg .al 14 9 .ror 11) ∧
    decode (.arm 0x037B0C0E#32) = .ok (.cmnImm .eq 11 12 14) ∧
    decode (.arm 0x11780EED#32) = .ok (.cmnShImm .ne 8 29 .ror 13) ∧
    decode (.arm 0x21790758#32) = .ok (.cmnShReg .cs 9 7 .asr 8) := by
  decide

/-- Words written out field by field from R96. -/
theorem test_decode_data_orr_to_mvn :
    decode (.arm 0x3392482A#32) = .ok (.orrImm .cc true 2 4 8 42) ∧
    decode (.arm 0x818A6123#32) = .ok (.orrShImm .hi false 10 6 2 .lsr 3) ∧
    decode (.arm 0xA18A6177#32) = .ok (.orrShReg .ge false 10 6 1 .ror 7) ∧
    decode (.arm 0xD3A0B5F5#32) = .ok (.movImm .le false 11 5 245) ∧
    decode (.arm 0xE1B0A64E#32) = .ok (.movShImm .al true 10 12 .asr 14) ∧
    decode (.arm 0x01B08576#32) = .ok (.movShReg .eq true 8 5 .ror 6) ∧
    decode (.arm 0x13DE8C2A#32) = .ok (.bicImm .ne true 14 8 12 42) ∧
    decode (.arm 0x21C9462F#32) = .ok (.bicShImm .cs false 9 4 12 .lsr 15) ∧
    decode (.arm 0x31C9D57E#32) = .ok (.bicShReg .cc false 9 13 5 .ror 14) ∧
    decode (.arm 0x83E0CE43#32) = .ok (.mvnImm .hi false 12 14 67) ∧
    decode (.arm 0xA1F0F34D#32) = .ok (.mvnShImm .ge true 15 6 .asr 13) ∧
    decode (.arm 0xD1E09D76#32) = .ok (.mvnShReg .le false 9 13 .ror 6) := by
  decide

/-- Words written out field by field from R98, R99. -/
theorem test_decode_status_and_bx :
    decode (.arm 0xE10FA000#32) = .ok (.mrs .al false 10) ∧
    decode (.arm 0x012DF004#32) = .ok (.msrReg .eq false 13 4) ∧
    decode (.arm 0x136CFD3B#32) = .ok (.msrImm .ne true 12 13 59) ∧
    decode (.arm 0x212FFF14#32) = .ok (.bx .cs 4) := by
  decide

/-- Words written out field by field from R100, R101. -/
theorem test_decode_multiply_and_swap :
    decode (.arm 0x30160C9D#32) = .ok (.mul .cc true 6 12 13) ∧
    decode (.arm 0x8038549C#32) = .ok (.mla .hi true 8 5 4 12) ∧
    decode (.arm 0xA098DF9C#32) = .ok (.umull .ge true 8 13 15 12) ∧
    decode (.arm 0xD0B62498#32) = .ok (.umlal .le true 6 2 4 8) ∧
    decode (.arm 0xE0C6489A#32) = .ok (.smull .al false 6 4 8 10) ∧
    decode (.arm 0x00E8FB96#32) = .ok (.smlal .eq false 8 15 11 6) ∧
    decode (.arm 0x110DB092#32) = .ok (.swp .ne 13 11 2) ∧
    decode (.arm 0x214EB092#32) = .ok (.swpb .cs 14 11 2) := by
  decide

/-- Words written out field by field from R102. -/
theorem test_decode_halfword :
    decode (.arm 0x312F30B7#32) = .ok (.strhReg .cc true false true 15 3 7) ∧
    decode (.arm 0x816872B3#32) = .ok (.strhImm .hi true false true 8 7 35) ∧
    decode (.arm 0xA013A0BF#32) = .ok (.ldrhReg .ge false false false 3 10 15) ∧
    decode (.arm 0xD17BF3B9#32) = .ok (.ldrhImm .le true false true 11 15 57) ∧
    decode (.arm 0xE01DC0DB#32) = .ok (.ldrsbReg .al false false false 13 12 11) ∧
    decode (.arm 0x007E45D9#32) = .ok (.ldrsbImm .eq false false true 14 4 89) ∧
    decode (.arm 0x10B970FE#32) = .ok (.ldrshReg .ne false true true 9 7 14) ∧
    decode (.arm 0x207F8AF9#32) = .ok (.ldrshImm .cs false false true 15 8 169) := by
  decide

/-- Words written out field by field from R103. -/
theorem test_decode_word_transfer :
    decode (.arm 0x358EF36D#32) = .ok (.strImm .cc true false 14 15 877) ∧
    decode (.arm 0x840E83EE#32) = .ok (.strImmPost .hi false 14 8 1006) ∧
    decode (.arm 0xA42D3343#32) = .ok (.strtImm .ge false 13 3 835) ∧
    decode (.arm 0xD78AC94B#32) = .ok (.strReg .le true false 10 12 18 .asr 11) ∧
    decode (.arm 0xE68D2EE4#32) = .ok (.strRegPost .al true 13 2 29 .ror 4) ∧
    decode (.arm 0x06251CE8#32) = .ok (.strtReg .eq false 5 1 25 .ror 8) ∧
    decode (.arm 0x151DF635#32) = .ok (.ldrImm .ne false false 13 15 1589) ∧
    decode (.arm 0x241C5921#32) = .ok (.ldrImmPost .cs false 12 5 2337) ∧
    decode (.arm 0x34B9495F#32) = .ok (.ldrtImm .cc true 9 4 2399) ∧
    decode (.arm 0x879F9DC3#32) = .ok (.ldrReg .hi true false 15 9 27 .asr 3) ∧
    decode (.arm 0xA69277E4#32) = .ok (.ldrRegPost .ge true 2 7 15 .ror 4) ∧
    decode (.arm 0xD6B24B6B#32) = .ok (.ldrtReg .le true 2 4 22 .ror 11) := by
  decide

/-- Words written out field by field from R103. -/
theorem test_decode_byte_transfer :
    decode (.arm 0xE5C3587B#32) = .ok (.strbImm .al true false 3 5 2171) ∧
    decode (.arm 0x044C2F28#32) = .ok (.strbImmPost .eq false 12 2 3880) ∧
    decode (.arm 0x14E3B494#32) = .ok (.strbtImm .ne true 3 11 1172) ∧
    decode (.arm 0x276C75C4#32) = .ok (.strbReg .cs false true 12 7 11 .asr 4) ∧
    decode (.arm 0x36C62C68#32) = .ok (.strbRegPost .cc true 6 2 24 .ror 8) ∧
    decode (.arm 0x86EC75EA#32) = .ok (.strbtReg .hi true 12 7 11 .ror 10) ∧
    decode (.arm 0xA5D92FB2#32) = .ok (.ldrbImm .ge true false 9 2 4018) ∧
    decode (.arm 0xD45F253F#32) = .ok (.ldrbImmPost .le false 15 2 1343) ∧
    decode (.arm 0xE4FFD553#32) = .ok (.ldrbtImm .al true 15 13 1363) ∧
    decode (.arm 0x077E76EF#32) = .ok (.ldrbReg .eq false true 14 7 13 .ror 15) ∧
    decode (.arm 0x16DC61CD#32) = .ok (.ldrbRegPost .ne true 12 6 3 .asr 13) ∧
    decode (.arm 0x2677F1C1#32) = .ok (.ldrbtReg .cs false 7 15 3 .asr 1) := by
  decide

/-- Words written out field by field from R104, R105, R106. -/
theorem test_decode_block_and_branch :
    decode (.arm 0x374B87B9#32) = .ok (.undefined .cc 678973 9) ∧
    decode (.arm 0x889ADB32#32) = .ok (.ldm1 .hi false true false 10 56114) ∧
    decode (.arm 0xA87E0F94#32) = .ok (.ldm2 .ge false false true 14 3988) ∧
    decode (.arm 0xD979B57A#32) = .ok (.ldm3 .le true false true 9 13690) ∧
    decode (.arm 0xE909B5A5#32) = .ok (.stm1 .al true false false 9 46501) ∧
    decode (.arm 0x08450CE6#32) = .ok (.stm2 .eq false false false 5 3302) ∧
    decode (.arm 0x1A2E5F96#32) = .ok (.b .ne 3039126) ∧
    decode (.arm 0x2B33A716#32) = .ok (.bl .cs 3385110) := by
  decide

/-- Words written out field by field from R107, R108, R109. -/
theorem test_decode_coprocessor_and_swi :
    decode (.arm 0x3DA89B2E#32) = .ok (.stc .cc true true false true 8 9 11 46) ∧
    decode (.arm 0x8DBC9484#32) = .ok (.ldc .hi true true false true 12 9 4 132) ∧
    decode (.arm 0xAE84F2CE#32) = .ok (.cdp .ge 8 4 15 2 6 14) ∧
    decode (.arm 0xDEC7B8BE#32) = .ok (.mcr .le 6 7 11 8 5 14) ∧
    decode (.arm 0xEE995C56#32) = .ok (.mrc .al 4 9 5 12 2 6) ∧
    decode (.arm 0x0F32D90E#32) = .ok (.swi .eq 3332366) := by
  decide

/-- Words written out field by field from R110. -/
theorem test_decode_thumb_shift_add :
    decode (.thumb 0x06F2#16) = .ok (.tLslImm 27 6 2) ∧
    decode (.thumb 0x0B59#16) = .ok (.tLsrImm 13 3 1) ∧
    decode (.thumb 0x16D1#16) = .ok (.tAsrImm 27 2 1) ∧
    decode (.thumb 0x1873#16) = .ok (.tAddReg 1 6 3) ∧
    decode (.thumb 0x1B11#16) = .ok (.tSubReg 4 2 1) ∧
    decode (.thumb 0x1C77#16) = .ok (.tAddImm3 1 6 7) ∧
    decode (.thumb 0x1F3D#16) = .ok (.tSubImm3 4 7 5) ∧
    decode (.thumb 0x26F9#16) = .ok (.tMovImm8 6 249) ∧
    decode (.thumb 0x2B9A#16) = .ok (.tCmpImm8 3 154) ∧
    decode (.thumb 0x32B2#16) = .ok (.tAddImm8 2 178) ∧
    decode (.thumb 0x3B0C#16) = .ok (.tSubImm8 3 12) := by
  decide

/-- Words written out field by field from R110. -/
theorem test_decode_thumb_alu :
    decode (.thumb 0x4022#16) = .ok (.tAnd 4 2) ∧
    decode (.thumb 0x4053#16) = .ok (.tEor 2 3) ∧
    decode (.thumb 0x40A1#16) = .ok (.tLslReg 4 1) ∧
    decode (.thumb 0x40DD#16) = .ok (.tLsrReg 3 5) ∧
    decode (.thumb 0x411A#16) = .ok (.tAsrReg 3 2) ∧
    decode (.thumb 0x414B#16) = .ok (.tAdc 1 3) ∧
    decode (.thumb 0x4193#16) = .ok (.tSbc 2 3) ∧
    decode (.thumb 0x41D1#16) = .ok (.tRorReg 2 1) ∧
    decode (.thumb 0x421C#16) = .ok (.tTst 3 4) ∧
    decode (.thumb 0x424C#16) = .ok (.tNeg 1 4) ∧
    decode (.thumb 0x429D#16) = .ok (.tCmp 3 5) ∧
    decode (.thumb 0x42F2#16) = .ok (.tCmn 6 2) ∧
    decode (.thumb 0x4315#16) = .ok (.tOrr 2 5) ∧
    decode (.thumb 0x4379#16) = .ok (.tMul 7 1) ∧
    decode (.thumb 0x438B#16) = .ok (.tBic 1 3) ∧
    decode (.thumb 0x43F9#16) = .ok (.tMvn 7 1) := by
  decide

/-- Words written out field by field from R110. -/
theorem test_decode_thumb_high :
    decode (.thumb 0x446C#16) = .ok (.tAddHi 4 13) ∧
    decode (.thumb 0x455E#16) = .ok (.tCmpHi 6 11) ∧
    decode (.thumb 0x462F#16) = .ok (.tMovHi 7 5) ∧
    decode (.thumb 0x4730#16) = .ok (.tBx 6) := by
  decide

/-- Words written out field by field from R110. -/
theorem test_decode_thumb_transfer :
    decode (.thumb 0x4EC9#16) = .ok (.tLdrPc 6 201) ∧
    decode (.thumb 0x5167#16) = .ok (.tStrReg 5 4 7) ∧
    decode (.thumb 0x54F4#16) = .ok (.tStrbReg 3 6 4) ∧
    decode (.thumb 0x589E#16) = .ok (.tLdrReg 2 3 6) ∧
    decode (.thumb 0x5D72#16) = .ok (.tLdrbReg 5 6 2) ∧
    decode (.thumb 0x527E#16) = .ok (.tStrhReg 1 7 6) ∧
    decode (.thumb 0x5774#16) = .ok (.tLdsbReg 5 6 4) ∧
    decode (.thumb 0x5BBD#16) = .ok (.tLdrhReg 6 7 5) ∧
    decode (.thumb 0x5EAF#16) = .ok (.tLdshReg 2 5 7) ∧
    decode (.thumb 0x646F#16) = .ok (.tStrImm 17 5 7) ∧
    decode (.thumb 0x6EF9#16) = .ok (.tLdrImm 27 7 1) ∧
    decode (.thumb 0x76F5#16) = .ok (.tStrbImm 27 6 5) ∧
    decode (.thumb 0x7EB2#16) = .ok (.tLdrbImm 26 6 2) ∧
    decode (.thumb 0x80CA#16) = .ok (.tStrhImm 3 1 2) ∧
    decode (.thumb 0x8D59#16) = .ok (.tLdrhImm 21 3 1) ∧
    decode (.thumb 0x94D6#16) = .ok (.tStrSp 4 214) ∧
    decode (.thumb 0x9C8F#16) = .ok (.tLdrSp 4 143) := by
  decide

/-- Words written out field by field from R110. -/
theorem test_decode_thumb_sp_block :
    decode (.thumb 0xA1A1#16) = .ok (.tAddPc 1 161) ∧
    decode (.thumb 0xA9A1#16) = .ok (.tAddSp 1 161) ∧
    decode (.thumb 0xB045#16) = .ok (.tSpUp 69) ∧
    decode (.thumb 0xB0D8#16) = .ok (.tSpDown 88) ∧
    decode (.thumb 0xB47E#16) = .ok (.tPush false 126) ∧
    decode (.thumb 0xBD75#16) = .ok (.tPop true 117) ∧
    decode (.thumb 0xC712#16) = .ok (.tStmia 7 18) ∧
    decode (.thumb 0xCEEF#16) = .ok (.tLdmia 6 239) := by
  decide

/-- Words written out field by field from R110, R113, R351. -/
theorem test_decode_thumb_branch :
    decode (.thumb 0xD081#16) = .ok (.tBeq 129) ∧
    decode (.thumb 0xD1E6#16) = .ok (.tBne 230) ∧
    decode (.thumb 0xD28A#16) = .ok (.tBcs 138) ∧
    decode (.thumb 0xD318#16) = .ok (.tBcc 24) ∧
    decode (.thumb 0xD4A9#16) = .ok (.tBmi 169) ∧
    decode (.thumb 0xD587#16) = .ok (.tBpl 135) ∧
    decode (.thumb 0xD611#16) = .ok (.tBvs 17) ∧
    decode (.thumb 0xD7BF#16) = .ok (.tBvc 191) ∧
    decode (.thumb 0xD8BD#16) = .ok (.tBhi 189) ∧
    decode (.thumb 0xD97A#16) = .ok (.tBls 122) ∧
    decode (.thumb 0xDA41#16) = .ok (.tBge 65) ∧
    decode (.thumb 0xDBD0#16) = .ok (.tBlt 208) ∧
    decode (.thumb 0xDC14#16) = .ok (.tBgt 20) ∧
    decode (.thumb 0xDDD9#16) = .ok (.tBle 217) ∧
    decode (.thumb 0xDE5A#16) = .ok (.tUndefined 0x5A) ∧
    decode (.thumb 0xDF44#16) = .ok (.tSwi 68) ∧
    decode (.thumb 0xE1E1#16) = .ok (.tB 481) ∧
    decode (.thumb 0xF5D6#16) = .ok (.tBlPrefix 1494) ∧
    decode (.thumb 0xFE0E#16) = .ok (.tBlSuffix 1550) ∧
    decode (.thumb 0xB15A#16) = .ok (.tUndefinedSpace 0xB15A) := by
  decide

/-! ## Steps -/

/-- A small machine: CPSR, pc, the instruction at the pc, registers by place, words of memory. -/
def small (p : Platform) (cpsr cur : Nat) (code : Code) (regs : List (Nat × Nat)) (words : List (Nat × Nat)) : State :=
  let s : State := { State.reset with plat := p, cpsr := psrOfWord (BitVec.ofNat 32 cpsr), cur := BitVec.ofNat 32 cur }
  let s := regs.foldl (fun s x => { s with regs := s.regs.set! x.1 (BitVec.ofNat 32 x.2) }) s
  let s := words.foldl (fun s x => s.placed (BitVec.ofNat 32 x.1) (BitVec.ofNat 32 x.2)) s
  match code with
  | .arm w => s.placed s.cur w
  | .thumb h => s.placedHalf s.cur h

/-- One step goes on, and the next state has this pc, CPSR, these registers, words and SPSRs. -/
def ends (s : State) (cur cpsr : Nat) (regs : List (Nat × Nat)) (words : List (Nat × Nat)) (spsrs : List (Mode × Nat)) :
    Bool :=
  match step s with
  | .next t =>
    t.cur == BitVec.ofNat 32 cur && t.cpsr == psrOfWord (BitVec.ofNat 32 cpsr) &&
    regs.all (fun x => t.regs[x.1]? == some (BitVec.ofNat 32 x.2)) &&
    words.all (fun x => t.readWord (BitVec.ofNat 32 x.1) == BitVec.ofNat 32 x.2) &&
    spsrs.all (fun x => t.spsrOf x.1 == some (psrOfWord (BitVec.ofNat 32 x.2)))
  | .fault _ => false
  | .refused _ => false

/-! The rows of 95_test_vectors.md, one step each, by their ids. -/

theorem test_vC5_movcs :
    ends (small .reset 0x20000010 0x1000 (.arm 0x23A00001) [(0, 0x0)] [])
      0x1004 0x20000010 [(0, 0x1)] [] [] = true := by
  decide

theorem test_vC29_movgt :
    ends (small .reset 0x10 0x1000 (.arm 0xC3A00001) [(0, 0x0)] [])
      0x1004 0x10 [(0, 0x1)] [] [] = true := by
  decide

theorem test_vS15_movs :
    ends (small .reset 0x20000010 0x1000 (.arm 0xE1B00061) [(1, 0x2)] [])
      0x1004 0x80000010 [(0, 0x80000001)] [] [] = true := by
  decide

theorem test_vS26_movs :
    ends (small .reset 0x10 0x1000 (.arm 0xE1B00271) [(1, 0x80000001), (2, 0x24)] [])
      0x1004 0x10 [(0, 0x18000000)] [] [] = true := by
  decide

theorem test_vD4_eor :
    ends (small .reset 0x10 0x1000 (.arm 0xE22100FF) [(1, 0x12345678)] [])
      0x1004 0x10 [(0, 0x12345687)] [] [] = true := by
  decide

theorem test_vD7_subs :
    ends (small .reset 0x10 0x1000 (.arm 0xE0510002) [(1, 0x80000000), (2, 0x1)] [])
      0x1004 0x30000010 [(0, 0x7fffffff)] [] [] = true := by
  decide

theorem test_vD10_rsbs :
    ends (small .reset 0x10 0x1000 (.arm 0xE2710000) [(1, 0x80000000)] [])
      0x1004 0x90000010 [(0, 0x80000000)] [] [] = true := by
  decide

theorem test_vD13_adds :
    ends (small .reset 0x10 0x1000 (.arm 0xE0910002) [(1, 0x80000000), (2, 0x80000000)] [])
      0x1004 0x70000010 [(0, 0x0)] [] [] = true := by
  decide

theorem test_vD15_add :
    ends (small .reset 0x10 0x1000 (.arm 0xE28F0004) [] [])
      0x1004 0x10 [(0, 0x100c)] [] [] = true := by
  decide

theorem test_vD20_sbcs :
    ends (small .reset 0x20000010 0x1000 (.arm 0xE0D10002) [(1, 0x5), (2, 0x5)] [])
      0x1004 0x60000010 [(0, 0x0)] [] [] = true := by
  decide

theorem test_vD22_rscs :
    ends (small .reset 0x10 0x1000 (.arm 0xE0F10002) [(1, 0x1), (2, 0x3)] [])
      0x1004 0x20000010 [(0, 0x1)] [] [] = true := by
  decide

theorem test_vD24_tst :
    ends (small .reset 0x10 0x1000 (.arm 0xE3110102) [(1, 0xc0000000)] [])
      0x1004 0xa0000010 [] [] [] = true := by
  decide

theorem test_vD26_teq :
    ends (small .reset 0x10000010 0x1000 (.arm 0xE1310002) [(1, 0x55), (2, 0x55)] [])
      0x1004 0x50000010 [] [] [] = true := by
  decide

theorem test_vD30_cmp :
    ends (small .reset 0x10 0x1000 (.arm 0xE1510002) [(1, 0x80000000), (2, 0x7fffffff)] [])
      0x1004 0x30000010 [] [] [] = true := by
  decide

theorem test_vD33_cmn :
    ends (small .reset 0x10 0x1000 (.arm 0xE3710001) [(1, 0x7fffffff)] [])
      0x1004 0x90000010 [] [] [] = true := by
  decide

theorem test_vD34_orrs :
    ends (small .reset 0x30000010 0x1000 (.arm 0xE1910002) [(1, 0x80000000), (2, 0x1)] [])
      0x1004 0xb0000010 [(0, 0x80000001)] [] [] = true := by
  decide

theorem test_vD36_movs :
    ends (small .reset 0xb0000010 0x1000 (.arm 0xE3B00000) [] [])
      0x1004 0x70000010 [(0, 0x0)] [] [] = true := by
  decide

theorem test_vD37_bics :
    ends (small .reset 0x10 0x1000 (.arm 0xE3D100FF) [(1, 0xff)] [])
      0x1004 0x40000010 [(0, 0x0)] [] [] = true := by
  decide

theorem test_vD38_mvns :
    ends (small .reset 0x10 0x1000 (.arm 0xE3F00000) [] [])
      0x1004 0x80000010 [(0, 0xffffffff)] [] [] = true := by
  decide

theorem test_vD42_add :
    ends (small .reset 0x10 0x1000 (.arm 0xE08FF100) [(0, 0x3)] [])
      0x1014 0x10 [] [] [] = true := by
  decide

theorem test_vD45_addeqs :
    ends (small .reset 0x10 0x1000 (.arm 0x00910002) [(0, 0x9), (1, 0x1), (2, 0x2)] [])
      0x1004 0x10 [] [] [] = true := by
  decide

theorem test_vD46_movs :
    ends { small .reset 0xd3 0x1000 (.arm 0xE1B0F00E) [(25, 0x8004)] [] with spsrSvc := psrOfWord 0x60000010 }
      0x8004 0x60000010 [] [] [] = true := by
  decide

theorem test_vD47_subs :
    ends { small .reset 0x92 0x1000 (.arm 0xE25EF004) [(23, 0x8007)] [] with spsrIrq := psrOfWord 0x80000030 }
      0x8002 0x80000030 [] [] [] = true := by
  decide

theorem test_vP7_msr :
    ends (small .reset 0xa0000010 0x1000 (.arm 0xE128F000) [(0, 0x5fffffff)] [])
      0x1004 0x50000010 [] [] [] = true := by
  decide

theorem test_vP8_msr :
    ends (small .reset 0x40000010 0x1000 (.arm 0xE121F000) [(0, 0xd3)] [])
      0x1004 0x40000010 [] [] [] = true := by
  decide

theorem test_vP10_msr :
    ends (small .reset 0x600000d3 0x1000 (.arm 0xE321F0D2) [] [])
      0x1004 0x600000d2 [] [] [] = true := by
  decide

theorem test_vP15_msr :
    ends (small .reset 0xd3 0x1000 (.arm 0xE169F000) [(0, 0xa0000030)] [])
      0x1004 0xd3 [] [] [(.svc, 0xa0000030)] = true := by
  decide

theorem test_vM8_mla :
    ends (small .reset 0x10 0x1000 (.arm 0xE0203291) [(1, 0x7), (2, 0x6), (3, 0xffffffff)] [])
      0x1004 0x10 [(0, 0x29)] [] [] = true := by
  decide

theorem test_vM10_umull :
    ends (small .reset 0x10 0x1000 (.arm 0xE0810392) [(2, 0xffffffff), (3, 0xffffffff)] [])
      0x1004 0x10 [(0, 0x1), (1, 0xfffffffe)] [] [] = true := by
  decide

theorem test_vM12_smull :
    ends (small .reset 0x10 0x1000 (.arm 0xE0C10392) [(2, 0x80000000), (3, 0x80000000)] [])
      0x1004 0x10 [(0, 0x0), (1, 0x40000000)] [] [] = true := by
  decide

theorem test_vM16_umlal :
    ends (small .reset 0x10 0x1000 (.arm 0xE0A10392) [(0, 0xffffffff), (1, 0xffffffff), (2, 0x1), (3, 0x1)] [])
      0x1004 0x10 [(0, 0x0), (1, 0x0)] [] [] = true := by
  decide

theorem test_vL4_ldr :
    ends (small .reset 0x10 0x1000 (.arm 0xE5B10004) [(1, 0x2000)] [(0x2000, 0x44332211), (0x2004, 0x88776655)])
      0x1004 0x10 [(0, 0x88776655), (1, 0x2004)] [] [] = true := by
  decide

theorem test_vL10_ldr :
    ends (small .reset 0x10 0x1000 (.arm 0xE5910000) [(1, 0x2003)] [(0x2000, 0x44332211), (0x2004, 0x88776655)])
      0x1004 0x10 [(0, 0x33221144)] [] [] = true := by
  decide

theorem test_vL13_ldrb :
    ends (small { Platform.reset with bigEnd := true } 0x10 0x1000 (.arm 0xE5D10000) [(1, 0x2000)] [(0x2000, 0x44332211), (0x2004, 0x88776655)])
      0x1004 0x10 [(0, 0x44)] [] [] = true := by
  decide

theorem test_vL17_ldr :
    ends (small .reset 0x10 0x1000 (.arm 0xE591F000) [(1, 0x2000)] [(0x2000, 0x3003)])
      0x3000 0x10 [] [] [] = true := by
  decide

theorem test_vL22_str :
    ends (small .reset 0x10 0x1000 (.arm 0xE5210004) [(0, 0xaabbccdd), (1, 0x2004)] [(0x2000, 0x44332211), (0x2004, 0x88776655)])
      0x1004 0x10 [(1, 0x2000)] [(0x2000, 0xaabbccdd)] [] = true := by
  decide

theorem test_vL26_str :
    ends (small .reset 0x10 0x1000 (.arm 0xE581F000) [(1, 0x2000)] [(0x2000, 0x44332211), (0x2004, 0x88776655)])
      0x1004 0x10 [] [(0x2000, 0x100c)] [] = true := by
  decide

theorem test_vL28_ldrt :
    ends (small .reset 0x13 0x1000 (.arm 0xE4B10004) [(1, 0x2000)] [(0x2000, 0x44332211), (0x2004, 0x88776655)])
      0x1004 0x13 [(0, 0x44332211), (1, 0x2004)] [] [] = true := by
  decide

theorem test_vL30_ldr :
    ends (small { Platform.reset with aborts := [⟨0x2000, 0x2000, none, none, none⟩] } 0x20000010 0x1000 (.arm 0xE4910004) [(0, 0x77), (1, 0x2000)] [(0x2000, 0x44332211), (0x2004, 0x88776655)])
      0x10 0x20000097 [(1, 0x2004), (27, 0x1008)] [] [(.abt, 0x20000010)] = true := by
  decide

theorem test_vH3_ldrh :
    ends (small { Platform.reset with bigEnd := true } 0x10 0x1000 (.arm 0xE1D100B0) [(1, 0x2000)] [(0x2000, 0x8081ff7f)])
      0x1004 0x10 [(0, 0x8081)] [] [] = true := by
  decide

theorem test_vH6_ldrsh :
    ends (small .reset 0x10 0x1000 (.arm 0xE1D100F2) [(1, 0x2000)] [(0x2000, 0x8081ff7f)])
      0x1004 0x10 [(0, 0xffff8081)] [] [] = true := by
  decide

theorem test_vH9_ldrsb :
    ends (small { Platform.reset with bigEnd := true } 0x10 0x1000 (.arm 0xE1D100D1) [(1, 0x2000)] [(0x2000, 0x8081ff7f)])
      0x1004 0x10 [(0, 0xffffff81)] [] [] = true := by
  decide

theorem test_vH15_strh :
    ends (small { Platform.reset with bigEnd := true } 0x10 0x1000 (.arm 0xE1C100B2) [(0, 0xaabbccdd), (1, 0x2000)] [(0x2000, 0x8081ff7f)])
      0x1004 0x10 [] [(0x2000, 0x8081ccdd)] [] = true := by
  decide

theorem test_vB3_ldmda :
    ends (small .reset 0x10 0x1000 (.arm 0xE830000E) [(0, 0x2008)] [(0x2000, 0xa00), (0x2004, 0xa04), (0x2008, 0xa08), (0x200c, 0xa0c), (0x2010, 0xa10)])
      0x1004 0x10 [(0, 0x1ffc), (1, 0xa00), (2, 0xa04), (3, 0xa08)] [] [] = true := by
  decide

theorem test_vB5_stmia :
    ends (small .reset 0x10 0x1000 (.arm 0xE8A0000E) [(0, 0x2004), (1, 0x11), (2, 0x22), (3, 0x33)] [(0x2000, 0xa00), (0x2004, 0xa04), (0x2008, 0xa08), (0x200c, 0xa0c), (0x2010, 0xa10)])
      0x1004 0x10 [(0, 0x2010)] [(0x2004, 0x11), (0x2008, 0x22), (0x200c, 0x33)] [] = true := by
  decide

theorem test_vB9_ldmia :
    ends (small .reset 0x10 0x1000 (.arm 0xE8BD800E) [(13, 0x2000)] [(0x2000, 0xa00), (0x2004, 0xa04), (0x2008, 0xa08), (0x200c, 0x3002), (0x2010, 0xa10)])
      0x3000 0x10 [(1, 0xa00), (2, 0xa04), (3, 0xa08), (13, 0x2010)] [] [] = true := by
  decide

theorem test_vB17_stmia :
    ends (small .reset 0x92 0x1000 (.arm 0xE8C06000) [(0, 0x2000), (13, 0xaaaa0000), (14, 0xbbbb0000), (22, 0x1), (23, 0x2)] [(0x2000, 0xa00), (0x2004, 0xa04), (0x2008, 0xa08), (0x200c, 0xa0c), (0x2010, 0xa10)])
      0x1004 0x92 [] [(0x2000, 0xaaaa0000), (0x2004, 0xbbbb0000)] [] = true := by
  decide

theorem test_vB20_ldmia :
    ends { small .reset 0x92 0x1000 (.arm 0xE8FD8001) [(22, 0x2000)] [(0x2000, 0x55), (0x2004, 0x8000)] with spsrIrq := psrOfWord 0x20000010 }
      0x8000 0x20000010 [(0, 0x55), (22, 0x2008)] [] [] = true := by
  decide

theorem test_vB23_ldmia :
    ends (small { Platform.reset with aborts := [⟨0x2004, 0x2004, none, none, none⟩] } 0x10 0x1000 (.arm 0xE890000E) [(0, 0x2000), (1, 0x91), (2, 0x92), (3, 0x93)] [(0x2000, 0xa00), (0x2004, 0xa04), (0x2008, 0xa08), (0x200c, 0xa0c), (0x2010, 0xa10)])
      0x10 0x97 [(1, 0xa00), (27, 0x1008)] [] [(.abt, 0x10)] = true := by
  decide

theorem test_vB24_stmia :
    ends (small { Platform.reset with aborts := [⟨0x2004, 0x2004, none, none, none⟩] } 0x10 0x1000 (.arm 0xE8A0000E) [(0, 0x2000), (1, 0x91), (2, 0x92), (3, 0x93)] [(0x2000, 0xa00), (0x2004, 0xa04), (0x2008, 0xa08), (0x200c, 0xa0c), (0x2010, 0xa10)])
      0x10 0x97 [(0, 0x200c), (27, 0x1008)] [(0x2000, 0x91), (0x2008, 0x93)] [(.abt, 0x10)] = true := by
  decide

theorem test_vW3_swp :
    ends (small .reset 0x10 0x1000 (.arm 0xE1020091) [(1, 0xaabbccdd), (2, 0x2001)] [(0x2000, 0x44332211)])
      0x1004 0x10 [(0, 0x11443322)] [(0x2000, 0xaabbccdd)] [] = true := by
  decide

theorem test_vW5_swpb :
    ends (small { Platform.reset with bigEnd := true } 0x10 0x1000 (.arm 0xE1420091) [(1, 0xaabbccdd), (2, 0x2001)] [(0x2000, 0x44332211)])
      0x1004 0x10 [(0, 0x33)] [(0x2000, 0x44dd2211)] [] = true := by
  decide

theorem test_vJ5_b :
    ends (small .reset 0x10 0x1000 (.arm 0xEA800000) [] [])
      0xfe001008 0x10 [] [] [] = true := by
  decide

theorem test_vJ6_bl :
    ends (small .reset 0x10 0x1000 (.arm 0xEB0003FE) [(14, 0xffffffff)] [])
      0x2000 0x10 [(14, 0x1004)] [] [] = true := by
  decide

theorem test_vJ9_bx :
    ends (small .reset 0x10 0x1000 (.arm 0xE12FFF10) [(0, 0x2001)] [])
      0x2000 0x30 [] [] [] = true := by
  decide

theorem test_vX1_swi :
    ends (small .reset 0x60000010 0x1000 (.arm 0xEF123456) [] [])
      0x8 0x60000093 [(25, 0x1004)] [] [(.svc, 0x60000010)] = true := by
  decide

theorem test_vX4_undefined :
    ends (small .reset 0x1000001f 0x1000 (.arm 0xE7F000F0) [] [])
      0x4 0x1000009b [(29, 0x1004)] [] [(.und, 0x1000001f)] = true := by
  decide

theorem test_vX5_cdp :
    ends (small .reset 0x10 0x1000 (.arm 0xEE000700) [] [])
      0x4 0x9b [(29, 0x1004)] [] [(.und, 0x10)] = true := by
  decide

theorem test_vT1_lsl :
    ends (small .reset 0x20000030 0x1000 (.thumb 0x0008) [(1, 0x80000000)] [])
      0x1002 0xa0000030 [(0, 0x80000000)] [] [] = true := by
  decide

theorem test_vT3_lsr :
    ends (small .reset 0x30 0x1000 (.thumb 0x0808) [(1, 0x80000000)] [])
      0x1002 0x60000030 [(0, 0x0)] [] [] = true := by
  decide

theorem test_vT4_asr :
    ends (small .reset 0x30 0x1000 (.thumb 0x1008) [(1, 0x80000000)] [])
      0x1002 0xa0000030 [(0, 0xffffffff)] [] [] = true := by
  decide

theorem test_vT6_add :
    ends (small .reset 0x30 0x1000 (.thumb 0x1888) [(1, 0x7fffffff), (2, 0x1)] [])
      0x1002 0x90000030 [(0, 0x80000000)] [] [] = true := by
  decide

theorem test_vT9_sub :
    ends (small .reset 0x30 0x1000 (.thumb 0x1E48) [(1, 0x0)] [])
      0x1002 0x80000030 [(0, 0xffffffff)] [] [] = true := by
  decide

theorem test_vT11_mov :
    ends (small .reset 0xf0000030 0x1000 (.thumb 0x20FF) [] [])
      0x1002 0x30000030 [(0, 0xff)] [] [] = true := by
  decide

theorem test_vT13_cmp :
    ends (small .reset 0x30 0x1000 (.thumb 0x28FF) [(0, 0xff)] [])
      0x1002 0x60000030 [] [] [] = true := by
  decide

theorem test_vT16_sub :
    ends (small .reset 0x30 0x1000 (.thumb 0x3801) [(0, 0x80000000)] [])
      0x1002 0x30000030 [(0, 0x7fffffff)] [] [] = true := by
  decide

theorem test_vU1_and :
    ends (small .reset 0x30000030 0x1000 (.thumb 0x4008) [(0, 0xf0f0), (1, 0xff0)] [])
      0x1002 0x30000030 [(0, 0xf0)] [] [] = true := by
  decide

theorem test_vU2_eor :
    ends (small .reset 0x30 0x1000 (.thumb 0x4048) [(0, 0xff), (1, 0xff)] [])
      0x1002 0x40000030 [(0, 0x0)] [] [] = true := by
  decide

theorem test_vU8_lsr :
    ends (small .reset 0x30 0x1000 (.thumb 0x40C8) [(0, 0x80000000), (1, 0x20)] [])
      0x1002 0x60000030 [(0, 0x0)] [] [] = true := by
  decide

theorem test_vU10_asr :
    ends (small .reset 0x30 0x1000 (.thumb 0x4108) [(0, 0x80000000), (1, 0x28)] [])
      0x1002 0xa0000030 [(0, 0xffffffff)] [] [] = true := by
  decide

theorem test_vU12_adc :
    ends (small .reset 0x20000030 0x1000 (.thumb 0x4148) [(0, 0xffffffff), (1, 0x0)] [])
      0x1002 0x60000030 [(0, 0x0)] [] [] = true := by
  decide

theorem test_vU14_sbc :
    ends (small .reset 0x30 0x1000 (.thumb 0x4188) [(0, 0x5), (1, 0x5)] [])
      0x1002 0x80000030 [(0, 0xffffffff)] [] [] = true := by
  decide

theorem test_vU16_ror :
    ends (small .reset 0x30 0x1000 (.thumb 0x41C8) [(0, 0x80000001), (1, 0x1)] [])
      0x1002 0xa0000030 [(0, 0xc0000000)] [] [] = true := by
  decide

theorem test_vU19_tst :
    ends (small .reset 0x30000030 0x1000 (.thumb 0x4208) [(0, 0xf0), (1, 0xf)] [])
      0x1002 0x70000030 [] [] [] = true := by
  decide

theorem test_vU22_neg :
    ends (small .reset 0x30 0x1000 (.thumb 0x4248) [(0, 0x99), (1, 0x80000000)] [])
      0x1002 0x90000030 [(0, 0x80000000)] [] [] = true := by
  decide

theorem test_vU23_cmp :
    ends (small .reset 0x30 0x1000 (.thumb 0x4288) [(0, 0x80000000), (1, 0x1)] [])
      0x1002 0x30000030 [] [] [] = true := by
  decide

theorem test_vU24_cmn :
    ends (small .reset 0x30 0x1000 (.thumb 0x42C8) [(0, 0x1), (1, 0xffffffff)] [])
      0x1002 0x60000030 [] [] [] = true := by
  decide

theorem test_vU25_orr :
    ends (small .reset 0x30000030 0x1000 (.thumb 0x4308) [(0, 0x80000000), (1, 0x1)] [])
      0x1002 0xb0000030 [(0, 0x80000001)] [] [] = true := by
  decide

theorem test_vU28_bic :
    ends (small .reset 0x30 0x1000 (.thumb 0x4388) [(0, 0xff), (1, 0xf)] [])
      0x1002 0x30 [(0, 0xf0)] [] [] = true := by
  decide

theorem test_vU29_mvn :
    ends (small .reset 0x30 0x1000 (.thumb 0x43C8) [(0, 0x99), (1, 0x0)] [])
      0x1002 0x80000030 [(0, 0xffffffff)] [] [] = true := by
  decide

theorem test_vV1_add :
    ends (small .reset 0x90000030 0x1000 (.thumb 0x4440) [(0, 0xffffffff), (8, 0x2)] [])
      0x1002 0x90000030 [(0, 0x1)] [] [] = true := by
  decide

theorem test_vV5_cmp :
    ends (small .reset 0x30 0x1000 (.thumb 0x45C8) [(8, 0x2), (9, 0x2)] [])
      0x1002 0x60000030 [] [] [] = true := by
  decide

theorem test_vV8_mov :
    ends (small .reset 0x30 0x1000 (.thumb 0x46F7) [(14, 0x2001)] [])
      0x2000 0x30 [] [] [] = true := by
  decide

theorem test_vV12_bx :
    ends (small .reset 0x30 0x1000 (.thumb 0x4700) [(0, 0x2001)] [])
      0x2000 0x30 [] [] [] = true := by
  decide

theorem test_vV14_bx :
    ends (small .reset 0x30 0x1000 (.thumb 0x4778) [] [])
      0x1004 0x10 [] [] [] = true := by
  decide

theorem test_vV17_add :
    ends (small .reset 0x30 0x1002 (.thumb 0xA001) [] [])
      0x1004 0x30 [(0, 0x1008)] [] [] = true := by
  decide

theorem test_vV18_add :
    ends (small .reset 0x30 0x1000 (.thumb 0xA8FF) [(13, 0x3000)] [])
      0x1002 0x30 [(0, 0x33fc)] [] [] = true := by
  decide

theorem test_vV19_add :
    ends (small .reset 0x30 0x1000 (.thumb 0xB07F) [(13, 0x3000)] [])
      0x1002 0x30 [(13, 0x31fc)] [] [] = true := by
  decide

theorem test_vY2_ldr :
    ends (small .reset 0x30 0x1002 (.thumb 0x4801) [] [(0x1008, 0xcafef00d)])
      0x1004 0x30 [(0, 0xcafef00d)] [] [] = true := by
  decide

theorem test_vY4_strb :
    ends (small .reset 0x30 0x1000 (.thumb 0x5488) [(0, 0xaabbccdd), (1, 0x2000), (2, 0x3)] [(0x2000, 0x8081ff7f), (0x2004, 0x88776655)])
      0x1002 0x30 [] [(0x2000, 0xdd81ff7f)] [] = true := by
  decide

theorem test_vY6_ldr :
    ends (small .reset 0x30 0x1000 (.thumb 0x5888) [(1, 0x2000), (2, 0x2)] [(0x2000, 0x8081ff7f), (0x2004, 0x88776655)])
      0x1002 0x30 [(0, 0xff7f8081)] [] [] = true := by
  decide

theorem test_vY8_strh :
    ends (small .reset 0x30 0x1000 (.thumb 0x5288) [(0, 0xaabbccdd), (1, 0x2000), (2, 0x2)] [(0x2000, 0x8081ff7f), (0x2004, 0x88776655)])
      0x1002 0x30 [] [(0x2000, 0xccddff7f)] [] = true := by
  decide

theorem test_vY9_ldrh :
    ends (small .reset 0x30 0x1000 (.thumb 0x5A88) [(1, 0x2000), (2, 0x2)] [(0x2000, 0x8081ff7f), (0x2004, 0x88776655)])
      0x1002 0x30 [(0, 0x8081)] [] [] = true := by
  decide

theorem test_vY10_ldsb :
    ends (small .reset 0x30 0x1000 (.thumb 0x5688) [(1, 0x2000), (2, 0x1)] [(0x2000, 0x8081ff7f), (0x2004, 0x88776655)])
      0x1002 0x30 [(0, 0xffffffff)] [] [] = true := by
  decide

theorem test_vY12_ldsh :
    ends (small .reset 0x30 0x1000 (.thumb 0x5E88) [(1, 0x2000), (2, 0x2)] [(0x2000, 0x8081ff7f), (0x2004, 0x88776655)])
      0x1002 0x30 [(0, 0xffff8081)] [] [] = true := by
  decide

theorem test_vY15_str :
    ends (small .reset 0x30 0x1000 (.thumb 0x67C8) [(0, 0xaabbccdd), (1, 0x1f88)] [(0x2000, 0x8081ff7f), (0x2004, 0x88776655)])
      0x1002 0x30 [] [(0x2004, 0xaabbccdd)] [] = true := by
  decide

theorem test_vY17_strb :
    ends (small .reset 0x30 0x1000 (.thumb 0x77C8) [(0, 0xee), (1, 0x1fe4)] [(0x2000, 0x8081ff7f), (0x2004, 0x88776655)])
      0x1002 0x30 [] [(0x2000, 0xee81ff7f)] [] = true := by
  decide

theorem test_vY20_strh :
    ends (small .reset 0x30 0x1000 (.thumb 0x87C8) [(0, 0xbeef), (1, 0x1fc4)] [(0x2000, 0x8081ff7f), (0x2004, 0x88776655)])
      0x1002 0x30 [] [(0x2000, 0xbeefff7f)] [] = true := by
  decide

theorem test_vY23_str :
    ends (small .reset 0x30 0x1000 (.thumb 0x9001) [(0, 0xaabbccdd), (13, 0x2000)] [(0x2000, 0x8081ff7f), (0x2004, 0x88776655)])
      0x1002 0x30 [] [(0x2004, 0xaabbccdd)] [] = true := by
  decide

theorem test_vY24_ldr :
    ends (small .reset 0x30 0x1000 (.thumb 0x98FF) [(13, 0x1c08)] [(0x2000, 0x8081ff7f), (0x2004, 0x88776655)])
      0x1002 0x30 [(0, 0x88776655)] [] [] = true := by
  decide

theorem test_vY26_push :
    ends (small .reset 0x30 0x1000 (.thumb 0xB501) [(0, 0x11), (14, 0x1235), (13, 0x2008)] [(0x2000, 0xa00), (0x2004, 0xa04), (0x2008, 0xa08), (0x200c, 0xa0c)])
      0x1002 0x30 [(13, 0x2000)] [(0x2000, 0x11), (0x2004, 0x1235)] [] = true := by
  decide

theorem test_vY28_pop :
    ends (small .reset 0x30 0x1000 (.thumb 0xBD01) [(13, 0x2000)] [(0x2000, 0xa00), (0x2004, 0x3001), (0x2008, 0xa08), (0x200c, 0xa0c)])
      0x3000 0x30 [(0, 0xa00), (13, 0x2008)] [] [] = true := by
  decide

theorem test_vY32_ldmia :
    ends (small .reset 0x30 0x1000 (.thumb 0xC806) [(0, 0x2004)] [(0x2000, 0xa00), (0x2004, 0xa04), (0x2008, 0xa08), (0x200c, 0xa0c)])
      0x1002 0x30 [(0, 0x200c), (1, 0xa04), (2, 0xa08)] [] [] = true := by
  decide

theorem test_vY34_stmia :
    ends (small .reset 0x30 0x1000 (.thumb 0xC003) [(0, 0x2000), (1, 0x11)] [(0x2000, 0xa00), (0x2004, 0xa04), (0x2008, 0xa08), (0x200c, 0xa0c)])
      0x1002 0x30 [(0, 0x2008)] [(0x2000, 0x2000), (0x2004, 0x11)] [] = true := by
  decide

theorem test_vZ1_beq :
    ends (small .reset 0x40000030 0x1000 (.thumb 0xD004) [] [])
      0x100c 0x40000030 [] [] [] = true := by
  decide

theorem test_vZ3_bne :
    ends (small .reset 0x30 0x1000 (.thumb 0xD180) [] [])
      0xf04 0x30 [] [] [] = true := by
  decide

theorem test_vZ7_b :
    ends (small .reset 0x30 0x1000 (.thumb 0xE400) [] [])
      0x804 0x30 [] [] [] = true := by
  decide

theorem test_vZ9_bl :
    ends (small .reset 0x30 0x1000 (.thumb 0xF000) [] [])
      0x1002 0x30 [(14, 0x1004)] [] [] = true := by
  decide

theorem test_vZ11_bl :
    ends (small .reset 0x30 0x1000 (.thumb 0xF804) [(14, 0x3000)] [])
      0x3008 0x30 [(14, 0x1003)] [] [] = true := by
  decide

theorem test_vZ12_swi :
    ends (small .reset 0x20000030 0x1000 (.thumb 0xDFAB) [] [])
      0x8 0x20000093 [(25, 0x1002)] [] [(.svc, 0x20000030)] = true := by
  decide

theorem test_vZ13_0xde00 :
    ends (small .reset 0x30 0x1000 (.thumb 0xDE00) [] [])
      0x4 0x9b [(29, 0x1002)] [] [(.und, 0x30)] = true := by
  decide

theorem test_vZ15_0xb100 :
    ends (small .reset 0x30 0x1000 (.thumb 0xB100) [] [])
      0x4 0x9b [(29, 0x1002)] [] [(.und, 0x30)] = true := by
  decide

theorem test_vE3_mov :
    ends { small .reset 0x20000010 0x1000 (.arm 0xE3A00001) [(0, 0x0)] [] with lines := [⟨false, true, false⟩] }
      0x1c 0x200000d1 [(21, 0x1004)] [] [(.fiq, 0x20000010)] = true := by
  decide

theorem test_vE6_mov :
    ends { small .reset 0x20000050 0x1000 (.arm 0xE3A00001) [(0, 0x0)] [] with lines := [⟨false, true, true⟩] }
      0x18 0x200000d2 [(23, 0x1004)] [] [(.irq, 0x20000050)] = true := by
  decide

theorem test_vE10_mov :
    ends (small { Platform.reset with aborts := [⟨0, 0xFFFFFFFF, none, some .fetch, none⟩] } 0x20000030 0x1000 (.thumb 0x2001) [(0, 0x0)] [])
      0xc 0x20000097 [(27, 0x1004)] [] [(.abt, 0x20000030)] = true := by
  decide
/-- Row vW7: a swap whose read aborts writes neither memory nor Rd. -/
theorem test_vW7_swp :
    ends (small { Platform.reset with aborts := [⟨0x2000, 0x2003, none, some .read, none⟩] } 0x10 0x1000
      (.arm 0xE1020091) [(0, 5), (1, 0xAABBCCDD), (2, 0x2000)] [(0x2000, 0x44332211)])
      0x10 0x97 [(0, 5), (27, 0x1008)] [(0x2000, 0x44332211)] [(.abt, 0x10)] = true := by
  decide

/-! Coprocessor 7 there, worked by hand from 46 R253 to R257; and the hazard of 45 R244. -/

/-- `s` with coprocessor 7 there, accepting with these words. -/
def accepting (first : Word) (more : List Word) (s : State) : State :=
  { s with plat := { s.plat with coprocs := [7] }, replies := [.accept first more] }

theorem test_cdp : ends (accepting 0 [] (small .reset 0x10 0x1000 (.arm 0xEE000700) [] [])) 0x1004 0x10 [] [] [] = true := by
  decide

theorem test_mrc :
    ends (accepting 0xDEADBEEF [] (small .reset 0x10 0x1000 (.arm 0xEE100710) [] []))
      0x1004 0x10 [(0, 0xDEADBEEF)] [] [] = true := by
  decide

theorem test_mrc_flags :
    ends (accepting 0xAFFFFFFF [] (small .reset 0x50000010 0x1000 (.arm 0xEE10F710) [] []))
      0x1004 0xA0000010 [] [] [] = true := by
  decide

theorem test_stc_writes_back :
    ends (accepting 0x11 [0x22] (small .reset 0x10 0x1000 (.arm 0xEDA10701) [(1, 0x2000)] []))
      0x1004 0x10 [(1, 0x2004)] [(0x2000, 0), (0x2004, 0x11), (0x2008, 0x22), (0x200C, 0)] [] = true := by
  decide

/-- What was sent to coprocessors by a step that goes on. -/
def sentBy (s : State) : List (BitVec 4 × Word) :=
  match step s with
  | .next t => t.sent
  | .fault _ => []
  | .refused _ => []

theorem test_mcr :
    sentBy (accepting 0 [] (small .reset 0x10 0x1000 (.arm 0xEE000710) [(0, 0x77)] [])) = [(7, 0x77)] := by
  decide

theorem test_ldc_post_index :
    let s := accepting 0 [0] (small .reset 0x10 0x1000 (.arm 0xECB10702) [(1, 0x2000)] [(0x2000, 0xA), (0x2004, 0xB)])
    ends s 0x1004 0x10 [(1, 0x2008)] [] [] = true ∧ sentBy s = [(7, 0xA), (7, 0xB)] := by
  decide

theorem test_banked_after_user_bank :
    step { small .reset 0x13 0x1000 (.arm 0xE1A0000D) [] [] with afterUserBank := true } =
      .refused .bankedAfterUserBank := rfl

/-- SWI in Supervisor mode right after a User-bank transfer would write r14_svc (45 R244, 46 R250). -/
theorem test_swi_after_user_bank :
    step { small .reset 0x13 0x1000 (.arm 0xEF000005) [] [] with afterUserBank := true } =
      .refused .bankedAfterUserBank := rfl

/-- LDC with base r13 and MCR of r13, to a coprocessor that is absent: nothing is read (46 R252). -/
theorem test_absent_reads_nothing :
    ends { small .reset 0x13 0x1000 (.arm 0xED9D0701) [] [] with afterUserBank := true } 0x4 0x9B [(29, 0x1004)] []
      [(.und, 0x13)] = true ∧
    ends { small .reset 0x13 0x1000 (.arm 0xEE00D710) [] [] with afterUserBank := true } 0x4 0x9B [(29, 0x1004)] []
      [(.und, 0x13)] = true := by
  decide

/-- What the stores on record are after a step that goes on: those of the last instruction, and of the one before. -/
def onRecord (s : State) : List Host.Cell × List Host.Cell :=
  match step s with
  | .next t => (t.recentStores, t.olderStores)
  | .fault _ => ([], [])
  | .refused _ => ([], [])

/-- 20_memory.md R81: a store is on record after it, one older after a NOP, gone after a branch, and neither
older nor gone after a coprocessor wait. -/
theorem test_record_of_stores :
    onRecord (small .reset 0x10 0x1000 (.arm 0xE5C10000) [(1, 0x1008)] [(0x1008, 0xE1A00000)]) =
      ([(0x1008, 0x00)], []) ∧
    onRecord { small .reset 0x10 0x1000 (.arm 0xE1A00000) [] [] with recentStores := [(0x1008, 7)] } =
      ([], [(0x1008, 7)]) ∧
    onRecord { small .reset 0x10 0x1000 (.arm 0xEA000000) [] [] with recentStores := [(0x1008, 7)] } = ([], []) ∧
    onRecord { small { Platform.reset with coprocs := [7] } 0x10 0x1000 (.arm 0xEE000700) [] [] with
      recentStores := [(0x1008, 7)] } = ([(0x1008, 7)], []) := by
  decide

/-- Row vY35: STMIA with its base in the list and not the lowest is refused (48 R333). -/
theorem test_vY35_stmia :
    step (small .reset 0x30 0x1000 (.thumb 0xC103) [(0, 0x11), (1, 0x2000)] []) = .refused .baseInList := rfl

/-! ## What the statements assume, met

For each statement with hypotheses, a state and operands that meet them, each clause at a boundary of its range. -/

/-- Whether a step goes on. -/
def goesOn (r : Result) : Bool :=
  match r with
  | .next _ => true
  | .fault _ => false
  | .refused _ => false

theorem exists_next {r : Result} (h : goesOn r = true) : ∃ t, r = .next t := by
  cases r with
  | next t => exact ⟨t, rfl⟩
  | fault _ => simp [goesOn] at h
  | refused _ => simp [goesOn] at h

/-- User mode, ARM state: a NOP at the pc, registers and two words to work on. -/
def usrA : State :=
  small .reset 0x10 0x1000 (.arm 0xE1A00000) [(0, 5), (1, 0x2000), (2, 3), (13, 0x3000), (14, 0x8004)]
    [(0x2000, 0x44332211), (0x2004, 0x88776655)]

/-- The same in Thumb state. -/
def usrT : State :=
  small .reset 0x30 0x1000 (.thumb 0x46C0) [(0, 5), (1, 0x2000), (2, 3), (13, 0x3000), (14, 0x8004)]
    [(0x2000, 0x44332211), (0x2004, 0x88776655)]

/-- The same in Supervisor mode, ARM state, with the SPSR of a User mode program. -/
def svcA : State := { usrA with cpsr := psrOfWord 0x13, spsrSvc := psrOfWord 0x20000010 }

/-- The same in Supervisor mode, with the SPSR of a Thumb program. -/
def svcT : State := { svcA with spsrSvc := psrOfWord 0x20000030 }

/-- The same with an illegal mode in the SPSR. -/
def svcBad : State := { svcA with spsrSvc := psrOfWord 0x20000000 }

/-- User mode with the accesses to the word at 0x2000 aborted, other than fetches. -/
def abortA : State :=
  { usrA with plat := { Platform.reset with aborts := [⟨0x2000, 0x2003, none, none, none⟩] } }

/-- User mode with nothing mapped at 0x2000. -/
def holeA : State := { usrA with plat := { Platform.reset with holes := [⟨0x2000, 0x2003⟩] } }

/-- User mode with coprocessor 7 there, and what it will answer. -/
def coprocA (replies : List CoprocReply) : State :=
  { usrA with plat := { Platform.reset with coprocs := [7] }, replies := replies }

/-- Abort mode, the accesses to the word at 0x2000 aborted. -/
def abortAbt : State := { abortA with cpsr := psrOfWord 0x17 }

theorem witness_DecodeEncodeRoundTrip :
    (Instr.tUndefinedSpace 0xE800).wellFormed = true ∧ (Instr.tUndefinedSpace 0xEFFF).wellFormed = true ∧
    (Instr.tUndefinedSpace 0xB100).wellFormed = true ∧ (Instr.tUndefinedSpace 0xB3FF).wellFormed = true ∧
    (Instr.tUndefinedSpace 0xB600).wellFormed = true ∧ (Instr.tUndefinedSpace 0xBBFF).wellFormed = true ∧
    (Instr.tUndefinedSpace 0xBE00).wellFormed = true ∧ (Instr.tUndefinedSpace 0xBFFF).wellFormed = true := by
  decide

theorem witness_DecodedCodeEncodesBack : decode (.arm 0xE0110002) = .ok (.andShImm .al true 1 0 0 .lsl 2) := by
  decide

theorem witness_ConditionNeverRefused :
    (let s := small .reset 0x10 0x1000 (.arm 0xF3A00001) [] []
     undisturbed s ∧ s.inWindow = false ∧ s.cpsr.t = false ∧ (s.readWord s.cur).extractLsb' 28 4 = 15 ∧
      ∀ i : Instr, i.wellFormed = true → encode i ≠ codeIn s.mem s) ∧
    (let s := small .reset 0x10 0x1000 (.arm 0xE1C100D0) [] []
     undisturbed s ∧ s.inWindow = false ∧ (decode (codeIn s.mem s)).toOption = none) ∧
    (let s := small .reset 0x30 0x1000 (.thumb 0x47F8) [] []
     undisturbed s ∧ s.inWindow = false ∧ (decode (codeIn s.mem s)).toOption = none) := by
  refine ⟨⟨by unfold undisturbed; decide, by decide, by decide, by decide, fun i _ h => ?_⟩, by unfold undisturbed; decide,
    by unfold undisturbed; decide⟩
  have hw : codeIn (small .reset 0x10 0x1000 (.arm 0xF3A00001) [] []).mem
      (small .reset 0x10 0x1000 (.arm 0xF3A00001) [] []) = .arm 0xF3A00001 := by decide
  obtain ⟨c, hc⟩ := encode_condition (h.trans hw)
  cases c <;> exact absurd hc (by decide)

theorem witness_StepRunsDecodedInstruction :
    (undisturbed usrA ∧ usrA.inWindow = false ∧
      decode (codeIn usrA.mem usrA) = .ok (.movShImm .al false 0 0 .lsl 0) ∧
      (usrA.afterUserBank && touchesBanked (.movShImm .al false 0 0 .lsl 0) usrA) = false) ∧
    (let s := { usrT with afterUserBank := true }
     undisturbed s ∧ s.inWindow = false ∧ decode (codeIn s.mem s) = .ok (.tMovHi 8 8) ∧
      (s.afterUserBank && touchesBanked (.tMovHi 8 8) s) = false) := by
  unfold undisturbed
  decide

theorem witness_PrefetchWindowChoice :
    (let s := { usrA with recentStores := [(0x1003, 0xE3)], olderStores := [(0x1000, 7)] }
     undisturbed s ∧ s.inWindow = true ∧
      decode (codeIn s.mem s) = .ok (.movShImm .al false 0 0 .lsl 0) ∧
      decode (codeIn (undone s.recentStores s.mem) s) = .ok (.movImm .al false 0 0 0) ∧
      decode (codeIn (undone s.olderStores (undone s.recentStores s.mem)) s) = .ok (.movImm .al false 0 0 7) ∧
      s.afterUserBank = false) ∧
    (let s := { usrA with recentStores := [(0x1003, 0xF3)] }
     undisturbed s ∧ s.inWindow = true ∧ (decode (codeIn (undone s.recentStores s.mem) s)).toOption = none) ∧
    (let s := { small .reset 0x13 0x1000 (.arm 0xE1A0000D) [] [] with
       recentStores := [(0x1000, 0xD)], afterUserBank := true }
     undisturbed s ∧ s.inWindow = true ∧ decode (codeIn s.mem s) = .ok (.movShImm .al false 0 0 .lsl 13) ∧
      touchesBanked (.movShImm .al false 0 0 .lsl 13) s = true) := by
  unfold undisturbed
  decide

theorem witness_StepTakesExceptionsInOrder :
    let line (r f i : Bool) : State := { usrA with lines := [⟨r, f, i⟩] }
    let aborts : State :=
      { usrA with plat := { Platform.reset with aborts := [⟨0x1000, 0x1000, none, some .fetch, none⟩] } }
    (line true true true).linesNow.reset = true ∧
    ((line false true true).linesNow.reset = false ∧ modeOfBits usrA.cpsr.m ≠ none ∧ usrA.pastTop = false ∧
      (line false true true).linesNow.fiq = true ∧ (line false true true).cpsr.f = false) ∧
    ((line false false true).linesNow.fiq = false ∧ (line false false true).linesNow.irq = true ∧
      (line false false true).cpsr.i = false) ∧
    (aborts.linesNow.reset = false ∧ aborts.linesNow.fiq = false ∧ aborts.linesNow.irq = false ∧
      aborts.access .fetch aborts.privilege aborts.cur aborts.size = .aborted) ∧
    modeOfBits (State.cpsr { usrA with cpsr := psrOfWord 0x1A }).m = none ∧
    State.pastTop { usrA with pastTop := true } = true ∧
    (let s := { usrA with plat := { Platform.reset with holes := [⟨0x1003, 0x1003⟩] } }
     s.access .fetch s.privilege s.cur s.size = .unmapped) := by
  decide

theorem witness_MaskedInterruptsNotTaken :
    State.reset.cpsr.f = true ∧ State.reset.cpsr.i = true := by
  decide

/-- An ARM instruction in the mode of a CPSR, right after a User-bank transfer. -/
def after (cpsr : Nat) (w : Word) : State := { small .reset cpsr 0x1000 (.arm w) [] [] with afterUserBank := true }

theorem witness_HazardRefusal :
    (let s := after 0x13 0xE1A0000D
     undisturbed s ∧ s.inWindow = false ∧ s.afterUserBank = true ∧
      decode (codeIn s.mem s) = .ok (.movShImm .al false 0 0 .lsl 13) ∧
      namedRegisters (.movShImm .al false 0 0 .lsl 13) s = some (.al, [0, 13]) ∧ condHolds .al s.cpsr = true) ∧
    (let q := after 0x11 0xE1A0000C
     undisturbed q ∧ q.inWindow = false ∧ q.afterUserBank = true ∧
      decode (codeIn q.mem q) = .ok (.movShImm .al false 0 0 .lsl 12) ∧
      namedRegisters (.movShImm .al false 0 0 .lsl 12) q = some (.al, [0, 12]) ∧ condHolds .al q.cpsr = true ∧
      q.mode = .fiq ∧ 8 ≤ (12 : Reg).toNat ∧ (12 : Reg).toNat ≤ 12) ∧
    (let v := after 0x13 0xEF000005
     undisturbed v ∧ v.inWindow = false ∧ decode (codeIn v.mem v) = .ok (.swi .al 5) ∧ v.mode = .svc) ∧
    (let u := after 0x1B 0xE6000010
     undisturbed u ∧ u.inWindow = false ∧ decode (codeIn u.mem u) = .ok (.undefined .al 0 0) ∧ u.mode = .und) := by
  unfold undisturbed
  refine ⟨?_, ?_, ?_, ?_⟩ <;> decide

theorem witness_InvariantKeptByStep :
    (State.inv usrA = true ∧ ∃ t, step usrA = .next t) ∧ (State.inv usrT = true ∧ ∃ t, step usrT = .next t) :=
  ⟨⟨by decide, exists_next (by decide)⟩, ⟨by decide, exists_next (by decide)⟩⟩

theorem witness_PlatformKeptByStep : ∃ t, step usrA = .next t := exists_next (by decide)

theorem witness_UserModeConfined :
    (usrA.cpsr.m = 0b10000 ∧ ∃ t, step usrA = .next t) ∧
    (let s := small .reset 0x10 0x1000 (.arm 0xEF000000) [] []
     s.cpsr.m = 0b10000 ∧ ∃ t, step s = .next t) :=
  ⟨⟨by decide, exists_next (by decide)⟩, ⟨by decide, exists_next (by decide)⟩⟩

theorem witness_ResetLineEffect : (State.linesNow { usrA with lines := [⟨true, false, false⟩] }).reset = true := by
  decide

theorem witness_ExceptionReturnEffect :
    usrA.mode = .usr ∧ (State.mode { usrA with cpsr := psrOfWord 0x1F }) = .sys ∧
    (svcBad.spsrOf svcBad.mode = some (psrOfWord 0x20000000) ∧ modeOfBits (psrOfWord 0x20000000).m = none) ∧
    (svcA.spsrOf svcA.mode = some (psrOfWord 0x20000010) ∧ modeOfBits (psrOfWord 0x20000010).m ≠ none ∧
      (psrOfWord 0x20000010).t = false ∧ (0x8001 : Word).toNat % 4 ≠ 0 ∧ (0x8004 : Word).toNat % 4 = 0) ∧
    (svcT.spsrOf svcT.mode = some (psrOfWord 0x20000030) ∧ modeOfBits (psrOfWord 0x20000030).m ≠ none ∧
      (psrOfWord 0x20000030).t = true) := by
  decide

theorem witness_ReturnInstructionsResume : usrA.inv = true ∧ usrT.inv = true ∧ svcA.inv = true := by
  decide

theorem witness_SwiAndUndefined :
    condHolds .al usrA.cpsr = true ∧ condHolds .ne usrA.cpsr = true ∧ ¬ ownBank .svc usrA ∧ ¬ ownBank .und usrA ∧
    ownBank .svc { svcA with afterUserBank := true } ∧
    ownBank .und { usrA with cpsr := psrOfWord 0x1B, afterUserBank := true } := by
  unfold ownBank
  decide

theorem witness_FailedConditionOnlyAdvances :
    namedRegisters (.swi .eq 0) usrA = some (.eq, []) ∧ condHolds .eq usrA.cpsr = false := by
  decide

theorem witness_DataImmediateEffect :
    condHolds .al usrA.cpsr = true ∧ AluOp.compares .cmp = true ∧ (14 : Reg) ≠ 15 ∧
    (0x000000FF : Word) = ((0xFF : BitVec 8).setWidth 32).rotateRight (2 * (0 : BitVec 4).toNat) ∧
    (0x000003FC : Word) = ((0xFF : BitVec 8).setWidth 32).rotateRight (2 * (15 : BitVec 4).toNat) := by
  decide

theorem witness_DataShiftImmediateEffect :
    condHolds .al usrA.cpsr = true ∧ AluOp.compares .cmn = true ∧ (14 : Reg) ≠ 15 := by
  decide

theorem witness_DataShiftRegisterEffect :
    condHolds .al usrA.cpsr = true ∧ AluOp.compares .tst = true ∧ AluOp.moves .mov = true ∧ (14 : Reg) ≠ 15 := by
  decide

theorem witness_ShiftImmediateTable : (0 : BitVec 5) = 0 ∧ (1 : BitVec 5) ≠ 0 ∧ (31 : BitVec 5) ≠ 0 := by
  decide

theorem witness_ShiftRegisterTable :
    0 = (0xFFFFFF00 : Word).toNat % 256 ∧ 1 = (0x101 : Word).toNat % 256 ∧ 31 = (31 : Word).toNat % 256 ∧
    32 = (32 : Word).toNat % 256 ∧ 33 = (33 : Word).toNat % 256 ∧ 255 = (255 : Word).toNat % 256 := by
  decide

theorem witness_DataPcJump :
    condHolds .al usrA.cpsr = true ∧ AluOp.compares .mov = false ∧ AluOp.compares .add = false ∧
    dataToPc (.movShImm .al false 15 0 .lsl 14) .mov .al false 0
      (shiftByImmediate .lsl (usrA.readReg 14) 0 usrA.cpsr.c) usrA ∧
    (specResult .mov (usrA.readReg 0) (shiftByImmediate .lsl (usrA.readReg 14) 0 usrA.cpsr.c).value
      usrA.cpsr.c).toNat % 4 = 0 ∧
    dataToPc (.addImm .al false 14 15 0 1) .add .al false 14 ⟨1, none⟩ usrA ∧
    (specResult .add (usrA.readReg 14) 1 usrA.cpsr.c).toNat % 4 ≠ 0 :=
  ⟨by decide, by decide, by decide, Or.inr ⟨0, .lsl, 14, rfl, rfl⟩, by decide,
    Or.inl ⟨0, 1, rfl, by decide⟩, by decide⟩

theorem witness_DataPcReturn :
    condHolds .al svcA.cpsr = true ∧ AluOp.compares .sub = false ∧
    dataToPc (.subImm .al true 14 15 0 4) .sub .al true 14 ⟨4, none⟩ svcA :=
  ⟨by decide, by decide, Or.inl ⟨0, 4, rfl, by decide⟩⟩

theorem witness_RegisterShiftPcRefused :
    condHolds .al usrA.cpsr = true ∧ AluOp.compares .add = false ∧ AluOp.moves .add = false := by
  decide

theorem witness_CompareDecidesOrder : condHolds .al usrA.cpsr = true := by
  decide

theorem witness_MrsEffect :
    condHolds .al svcA.cpsr = true ∧ (14 : Reg) ≠ 15 ∧ svcA.spsrOf svcA.mode = some (psrOfWord 0x20000010) ∧
    svcA.cpsr = psrOfWord 0x13 := by
  decide

theorem witness_MsrUserMode :
    usrA.mode = .usr ∧ condHolds .al usrA.cpsr = true ∧
    isMsr (.msrReg .al false 15 14) .al false 15 0x8004 usrA ∧ isMsr (.msrImm .al false 8 2 0xF) .al false 8 0xF0000000 usrA :=
  ⟨by decide, by decide, Or.inl ⟨14, by decide, rfl, by decide⟩, Or.inr ⟨2, 0xF, rfl, by decide⟩⟩

theorem witness_MsrPrivilegedMode :
    condHolds .al svcA.cpsr = true ∧ svcA.mode ≠ .usr ∧
    isMsr (.msrImm .al false 9 0 0x10) .al false 9 0x10 svcA ∧ (9 : BitVec 4).getLsbD 0 = true ∧
    (0x10 : Word).getLsbD 5 = svcA.cpsr.t ∧ modeOfBits ((0x10 : Word).extractLsb' 0 5) ≠ none ∧
    isMsr (.msrReg .al true 15 0) .al true 15 5 svcA ∧ svcA.spsrOf svcA.mode = some (psrOfWord 0x20000010) :=
  ⟨by decide, by decide, Or.inr ⟨0, 0x10, rfl, by decide⟩, by decide, by decide, by decide,
    Or.inl ⟨0, by decide, rfl, by decide⟩, by decide⟩

theorem witness_StatusTransferStops :
    condHolds .al svcA.cpsr = true ∧ usrA.mode = .usr ∧ (14 : Reg) ≠ 15 ∧
    isMsr (.msrImm .al true 1 0 0x10) .al true 1 0x10 usrA ∧
    isMsr (.msrImm .al false 1 0 0x33) .al false 1 0x33 svcA ∧ svcA.mode ≠ .usr ∧ (1 : BitVec 4).getLsbD 0 = true ∧
    (0x33 : Word).getLsbD 5 ≠ svcA.cpsr.t ∧ isMsr (.msrImm .al false 1 0 0) .al false 1 0 svcA ∧
    (0 : Word).getLsbD 5 = svcA.cpsr.t ∧ modeOfBits ((0 : Word).extractLsb' 0 5) = none :=
  ⟨by decide, by decide, by decide, Or.inr ⟨0, 0x10, rfl, by decide⟩, Or.inr ⟨0, 0x33, rfl, by decide⟩, by decide,
    by decide, by decide, Or.inr ⟨0, 0, rfl, by decide⟩, by decide, by decide⟩

theorem witness_MultiplyEffect :
    condHolds .al usrA.cpsr = true ∧ (14 : Reg) ≠ 15 ∧ (0 : Reg) ≠ 15 ∧ (14 : Reg) ≠ 0 ∧ (0 : LowReg) ≠ 7 := by
  decide

theorem witness_LongMultiplyEffect : condHolds .al usrA.cpsr = true ∧ longAllowed 14 0 14 2 := by
  unfold longAllowed
  decide

theorem witness_MultiplyRefusals : condHolds .al usrA.cpsr = true ∧ (14 : Reg) ≠ 15 ∧ (0 : Reg) ≠ 15 := by
  decide

theorem witness_StoredBytes :
    usrA.mem.wf = true ∧ (0xFFFFFFFC : Word).toNat % 4 = 0 ∧ (0xFFFFFFFE : Word).toNat % 2 = 0 := by
  decide

theorem witness_SingleLoads :
    (let x : Transfer := ⟨.load .word, .user, .al, false, true, false, 1, 0, 0x2000, 4, none, false⟩
     singleTransfer (.ldrImmPost .al true 1 0 4) usrA = some x ∧ x.op = .load .word ∧ x.allowed usrA ∧
       x.answer usrA = .granted ∧ x.rd ≠ 15 ∧ x.writesBack = true) ∧
    (let x : Transfer := ⟨.load .signedHalf, .user, .al, true, true, false, 0, 3, 0x2000, 0x2000, none, false⟩
     singleTransfer (.tLdshReg 1 1 3) usrT = some x ∧ x.op = .load .signedHalf ∧ x.allowed usrT ∧
       x.answer usrT = .granted ∧ x.rd ≠ 15) := by
  simp only [Transfer.allowed, Transfer.namesPc, Transfer.clashes, Transfer.odd]
  decide

theorem witness_LoadToPc :
    let x : Transfer := ⟨.load .word, .user, .al, true, true, true, 1, 15, 0x2000, 4, none, false⟩
    singleTransfer (.ldrImm .al true true 1 15 4) usrA = some x ∧ x.op = .load .word ∧ x.allowed usrA ∧
      x.answer usrA = .granted ∧ x.rd = 15 ∧ x.writesBack = true := by
  simp only [Transfer.allowed, Transfer.namesPc, Transfer.clashes, Transfer.odd]
  decide

theorem witness_SingleStores :
    let x : Transfer := ⟨.store .word, .user, .al, true, false, true, 1, 15, 0x2000, 0xFFF, none, false⟩
    singleTransfer (.strImm .al false true 1 15 0xFFF) usrA = some x ∧ x.op = .store .word ∧ x.allowed usrA ∧
      x.answer usrA = .granted ∧ usrA.mem.wf = true ∧ x.writesBack = true := by
  simp only [Transfer.allowed, Transfer.namesPc, Transfer.clashes, Transfer.odd]
  decide

theorem witness_SingleTransferAbort :
    let x : Transfer := ⟨.load .word, .user, .al, false, true, false, 1, 0, 0x2000, 4, none, false⟩
    singleTransfer (.ldrImmPost .al true 1 0 4) abortA = some x ∧ x.allowed abortA ∧ x.answer abortA = .aborted ∧
    ¬ ownBank .abt abortA ∧ ownBank .abt { abortAbt with afterUserBank := true } ∧
    (let y : Transfer := { x with priv := .privileged }
     singleTransfer (.ldrImmPost .al true 1 0 4) abortAbt = some y ∧ y.allowed abortAbt ∧
       y.answer abortAbt = .aborted) := by
  simp only [ownBank, Transfer.allowed, Transfer.namesPc, Transfer.clashes, Transfer.odd]
  decide

theorem witness_SingleTransferStops :
    (let x : Transfer := ⟨.load .byte, .user, .al, true, true, false, 1, 15, 0x2000, 0, none, true⟩
     singleTransfer (.ldrbImm .al true false 1 15 0) usrA = some x ∧ condHolds x.c usrA.cpsr = true ∧ x.namesPc) ∧
    (let x : Transfer := ⟨.load .word, .user, .al, true, true, true, 1, 1, 0x2000, 0, none, false⟩
     singleTransfer (.ldrImm .al true true 1 1 0) usrA = some x ∧ ¬ x.namesPc ∧ x.clashes) ∧
    (let x : Transfer := ⟨.load .half, .user, .al, true, true, false, 1, 0, 0x2000, 1, none, true⟩
     singleTransfer (.ldrhImm .al true true false 1 0 1) usrA = some x ∧ ¬ x.namesPc ∧ ¬ x.clashes ∧ x.odd) ∧
    (let x : Transfer := ⟨.load .word, .user, .al, true, true, false, 1, 0, 0x2000, 3, none, false⟩
     singleTransfer (.ldrImm .al true false 1 0 3) holeA = some x ∧ x.allowed holeA ∧ x.answer holeA = .unmapped) ∧
    (let x : Transfer := ⟨.load .half, .user, .al, false, true, true, 1, 0, 0x2000, 2, none, true⟩
     halfOrSignedTransfer (.ldrhImm .al false true true 1 0 2) usrA = some x ∧ condHolds x.c usrA.cpsr = true ∧
       x.p = false ∧ x.w = true) := by
  simp only [Transfer.allowed, Transfer.namesPc, Transfer.clashes, Transfer.odd]
  decide

theorem witness_LoadMultiple :
    condHolds .al svcA.cpsr = true ∧ (1 : Reg) ≠ 15 ∧ registersOf 0x8001 ≠ [] ∧ (1 : Reg) ∉ registersOf 0x8001 ∧
    blockGranted .read (specStart false true (svcA.readReg 1) 2) 2 svcA ∧ (15 : Reg) ∈ registersOf 0x8001 ∧
    registersOf ((0x6000 : BitVec 15).setWidth 16) ≠ [] ∧ svcA.mode ≠ .usr ∧ svcA.mode ≠ .sys := by
  unfold blockGranted
  decide

theorem witness_LoadMultipleReturn :
    (condHolds .al svcA.cpsr = true ∧ (13 : Reg) ≠ 15 ∧ svcA.spsrOf svcA.mode = some (psrOfWord 0x20000010) ∧
      modeOfBits (psrOfWord 0x20000010).m ≠ none ∧
      (13 : Reg) ∉ registersOf ((0 : BitVec 15).setWidth 16 ||| 0x8000#16) ∧
      blockGranted .read (specStart true true (svcA.readReg 13) 1) 1 svcA ∧
      (svcA.readWord (blockAddress (specStart true true (svcA.readReg 13) 1) 0)).toNat % 4 = 0) ∧
    (svcBad.spsrOf svcBad.mode = some (psrOfWord 0x20000000) ∧ modeOfBits (psrOfWord 0x20000000).m = none) ∧
    (blockGranted .read (specStart false true (svcA.readReg 1) 1) 1 svcA ∧ (psrOfWord 0x20000010).t = false ∧
      (svcA.readWord (blockAddress (specStart false true (svcA.readReg 1) 1) 0)).toNat % 4 ≠ 0) ∧
    (svcT.spsrOf svcT.mode = some (psrOfWord 0x20000030) ∧ modeOfBits (psrOfWord 0x20000030).m ≠ none ∧
      (psrOfWord 0x20000030).t = true) := by
  unfold blockGranted
  decide

theorem witness_StoreMultiple :
    condHolds .al svcA.cpsr = true ∧ (1 : Reg) ≠ 15 ∧ svcA.mem.wf = true ∧ registersOf 0x8002 ≠ [] ∧
    blockGranted .write (specStart true false (svcA.readReg 1) 2) 2 svcA ∧
    (registersOf 0x8002).head? = some 1 ∧ svcA.mode ≠ .usr ∧ svcA.mode ≠ .sys := by
  unfold blockGranted
  decide

/-- Blocks whose condition passes, of which some access aborts: at the base for a load, past a granted word
for a store; and Abort mode right after a User-bank transfer. -/
theorem witness_BlockAbort :
    (let b : Block := ⟨.al, true, false, 1, .usr, [2, 3], specStart false false 0x2000 2, none, []⟩
     blockForm (.ldm1 .al false false false 1 0xC) abortA = some b ∧ condHolds b.c abortA.cpsr = true ∧
      loadStopsAt b.start 2 1 .aborted abortA) ∧
    (let s := { svcA with plat := abortA.plat }
     let b : Block := ⟨.al, true, true, 1, .usr, [13], 0x2000, none, []⟩
     blockForm (.ldm2 .al false true false 1 0x2000) s = some b ∧ loadStopsAt b.start 1 0 .aborted s) ∧
    (let s := { svcA with plat := abortA.plat }
     let b : Block := ⟨.al, true, false, 1, .svc, [15], 0x2000, some 0x2004, []⟩
     blockForm (.ldm3 .al false true true 1 0) s = some b ∧ loadStopsAt b.start 1 0 .aborted s) ∧
    (let b : Block := ⟨.al, false, false, 1, .usr, [1, 2], specStart false false 0x2000 2, some 0x1FF8,
       [0x2000, 3]⟩
     blockForm (.stm1 .al false false true 1 6) abortA = some b ∧ b.load = false ∧ abortA.mem.wf = true ∧
      storeAborts b.start 2 abortA ∧ blockAnswer .write b.start abortA 0 = .granted) ∧
    (let s := { usrT with plat := { Platform.reset with holes := [⟨0x2000, 0x2000⟩] } }
     let b : Block := ⟨.al, false, false, 1, .usr, [1, 2], 0x2000, some 0x2008, [0x2000, 3]⟩
     blockForm (.tStmia 1 6) s = some b ∧ blockAnswer .write b.start s 0 = .unmapped) ∧
    (let s := { usrT with plat := { Platform.reset with holes := [⟨0x2000, 0x2000⟩] } }
     let b : Block := ⟨.al, true, false, 1, .usr, [0, 1], 0x2000, some 0x2008, []⟩
     blockForm (.tLdmia 1 3) s = some b ∧ loadStopsAt b.start 2 0 .unmapped s) ∧
    ¬ ownBank .abt abortA ∧ ownBank .abt { abortAbt with afterUserBank := true } ∧
    (let s := { coprocA [.accept 9 [10]] with plat := { abortA.plat with coprocs := [7] } }
     let a := coprocAddress false false (s.readReg 1 - 4) 1
     offersTo .al 7 s ∧ s.replies = .accept 9 [10] :: [] ∧ (1 : Reg) ≠ 15 ∧ [(10 : Word)].length < 2 ^ 30 ∧
      loadStopsAt a 2 1 .aborted s ∧ s.mem.wf = true ∧ storeAborts a 2 s) ∧
    (let s := { holeA with plat := { holeA.plat with coprocs := [7] } }
     loadStopsAt 0x2000 1 0 .unmapped s ∧ blockAnswer .write 0x2000 s 0 = .unmapped) := by
  unfold ownBank offersTo loadStopsAt storeAborts
  decide

theorem witness_BlockRefusals :
    condHolds .al usrA.cpsr = true ∧ condHolds .al svcA.cpsr = true ∧ (1 : BitVec 16) ≠ 0 ∧ (1 : BitVec 15) ≠ 0 ∧
    (1 : Reg) ≠ 15 ∧ (1 : Reg) ∈ registersOf 3 ∧ (registersOf 3).head? ≠ some 1 ∧
    (1 : Reg) ∈ registersOf ((2 : BitVec 15).setWidth 16 ||| 0x8000#16) ∧ usrA.mode = .usr ∧
    ¬ (svcA.mode = .usr ∨ svcA.mode = .sys) := by
  decide

theorem witness_SwapEffect :
    condHolds .al usrA.cpsr = true ∧ (1 : Reg) ≠ 15 ∧ (0 : Reg) ≠ 15 ∧ (1 : Reg) ≠ 0 ∧ (1 : Reg) ≠ 2 ∧
    usrA.access .read usrA.privilege (lowTwoCleared (usrA.readReg 1)) 4 = .granted ∧
    usrA.access .write usrA.privilege (lowTwoCleared (usrA.readReg 1)) 4 = .granted ∧ usrA.mem.wf = true ∧
    abortA.access .read abortA.privilege (lowTwoCleared (abortA.readReg 1)) 4 = .aborted ∧
    (let s : State := { usrA with plat := { Platform.reset with aborts := [⟨0x2000, 0x2000, some 1, some .write, none⟩] } }
     s.access .read s.privilege (s.readReg 1) 1 = .granted ∧ s.access .write s.privilege (s.readReg 1) 1 = .aborted) ∧
    ¬ ownBank .abt abortA ∧ ownBank .abt { abortAbt with afterUserBank := true } ∧
    holeA.access .read holeA.privilege (lowTwoCleared (holeA.readReg 1)) 4 = .unmapped := by
  unfold ownBank
  decide

theorem witness_ArmBranches : condHolds .al usrA.cpsr = true := by
  decide

theorem witness_Exchange :
    condHolds .al usrA.cpsr = true ∧ (usrA.readReg 2).toNat % 2 = 1 ∧ (usrA.readReg 1).toNat % 4 = 0 ∧
    (State.readReg { usrT with cur := 0x1002 } 15).toNat % 4 = 2 := by
  decide

theorem witness_CoprocessorAbsentOrBusy :
    coprocForm (.mrc .al 0 0 0 14 0 0) = some (.al, 14, false) ∧ condHolds .al usrA.cpsr = true ∧
    coprocForm (.cdp .al 0 0 0 7 0 0) = some (.al, 7, false) ∧ (7 : BitVec 4) ≠ 14 ∧ 7 ∉ usrA.plat.coprocs ∧
    offersTo .al 7 (coprocA []) ∧ (coprocA []).replies = [] ∧
    (coprocA [.busy]).replies = .busy :: [] ∧
    coprocForm (.ldc .al false false false false 1 0 7 0) = some (.al, 7, true) ∧
    coprocForm (.stc .al true false false true 15 0 7 0) = some (.al, 7, true) ∧
    ¬ ownBank .und usrA ∧ ownBank .und { usrA with cpsr := psrOfWord 0x1B, afterUserBank := true } := by
  unfold offersTo ownBank
  decide

theorem witness_CoprocessorRegister :
    offersTo .al 7 (coprocA [.accept 9 []]) ∧ (coprocA [.accept 9 []]).replies = .accept 9 [] :: [] := by
  unfold offersTo
  decide

theorem witness_CoprocessorTransfer :
    let s := coprocA [.accept 9 [10]]
    offersTo .al 7 s ∧ s.replies = .accept 9 [10] :: [] ∧ (1 : Reg) ≠ 15 ∧ [(10 : Word)].length < 2 ^ 30 ∧
    blockGranted .read (coprocAddress true true (s.readReg 1) 255) 2 s ∧
    blockGranted .write (coprocAddress true true (s.readReg 1) 255) 2 s ∧ s.mem.wf = true := by
  unfold offersTo blockGranted
  decide

theorem witness_ThumbData : thumbDataForm (.tNeg 1 0) usrT = some (.rsb, 0, 0x2000, ⟨0, none⟩) := by
  decide

theorem witness_ThumbHighAndSp :
    8 ≤ (8 : Reg).toNat ∧ 8 ≤ (15 : Reg).toNat ∧ (8 : Reg) ≠ 15 ∧ (7 : Reg).toNat < 8 ∧ (0 : Reg).toNat < 8 := by
  decide

theorem witness_ThumbBlockStores :
    usrT.mem.wf = true ∧ registersOf ((0 : BitVec 8).setWidth 16) ++ [] = [] ∧
    registersOf ((0 : BitVec 8).setWidth 16) ++ [14] ≠ [] ∧
    blockGranted .write (usrT.readReg 13 - four 1) 1 usrT ∧
    lowReg 1 ∈ registersOf ((3 : BitVec 8).setWidth 16) ∧
    (registersOf ((3 : BitVec 8).setWidth 16)).head? ≠ some (lowReg 1) ∧
    registersOf ((6 : BitVec 8).setWidth 16) ≠ [] ∧
    (registersOf ((6 : BitVec 8).setWidth 16)).head? = some (lowReg 1) ∧
    lowReg 1 ∉ registersOf ((4 : BitVec 8).setWidth 16) ∧
    blockGranted .write (usrT.readReg (lowReg 1)) 2 usrT := by
  unfold blockGranted
  decide

theorem witness_ThumbBlockLoads :
    registersOf ((0 : BitVec 8).setWidth 16) ++ [15] ≠ [] ∧ blockGranted .read (usrT.readReg 13) 1 usrT ∧
    registersOf ((0x80 : BitVec 8).setWidth 16) ≠ [] ∧ blockGranted .read (usrT.readReg (lowReg 1)) 1 usrT ∧
    lowReg 1 ∉ registersOf ((0x80 : BitVec 8).setWidth 16) := by
  unfold blockGranted
  decide

theorem witness_ThumbBranches :
    Instr.tBcond .ne 0x80 = some (.tBne 0x80) ∧ condHolds .ne usrT.cpsr = true ∧
    Instr.tBcond .eq 0x7F = some (.tBeq 0x7F) ∧ condHolds .eq usrT.cpsr = false := by
  decide

theorem witness_ThumbLongBranch : usrT.cpsr.t = true ∧ usrT.cur.toNat % 2 = 0 := by
  decide

end Sys2Proof.Tests
end

section
/-! SUPPORT. No step changes the platform, and each step uses up one sample of the input lines (00_scope.md R9,
20_memory.md R60, 60_exceptions.md R371, R372). One lemma for each shared operation says that what it answers keeps
the platform and the lines to come; every instruction is one of those operations. -/

namespace Sys2Proof.Machine

/-! ## The platform and the lines to come -/

/-- The platform and the input lines to come are as they were. -/
def platformKept (s t : State) : Prop := t.plat = s.plat ∧ t.lines = s.lines

/-- If `r` is a next state, it has the platform and the lines to come of `s`. -/
structure KeepsPlatform (s : State) (r : Result) : Prop where
  of_next : ∀ t, r = .next t → platformKept s t

theorem platformKept.trans {s t u : State} (h : platformKept s t) (h' : platformKept t u) : platformKept s u :=
  ⟨h'.1.trans h.1, h'.2.trans h.2⟩

theorem KeepsPlatform.next {s t : State} (h : platformKept s t) : KeepsPlatform s (.next t) :=
  ⟨by rintro _ ⟨⟩; exact h⟩

theorem KeepsPlatform.fault (s : State) (x : Fault) : KeepsPlatform s (.fault x) := ⟨by rintro _ ⟨⟩⟩

theorem KeepsPlatform.refused (s : State) (x : Refusal) : KeepsPlatform s (.refused x) := ⟨by rintro _ ⟨⟩⟩

/-- What keeps the platform of a state on the way keeps that of the state before it. -/
theorem KeepsPlatform.after {s u : State} {r : Result} (h : platformKept s u) (hr : KeepsPlatform u r) :
    KeepsPlatform s r := ⟨fun t ht => h.trans (hr.of_next t ht)⟩

/-! ## Updates of the state -/

@[simp] theorem takeUndefined_platform (s : State) :
    (takeUndefined s).plat = s.plat ∧ (takeUndefined s).lines = s.lines := by simp [takeUndefined]
@[simp] theorem takeSwi_platform (s : State) :
    (takeSwi s).plat = s.plat ∧ (takeSwi s).lines = s.lines := by simp [takeSwi]
@[simp] theorem takeDataAbort_platform (s : State) :
    (takeDataAbort s).plat = s.plat ∧ (takeDataAbort s).lines = s.lines := by simp [takeDataAbort]
@[simp] theorem interrupted_platform (e : Exception) (s : State) :
    (interrupted e s).plat = s.plat ∧ (interrupted e s).lines = s.lines := by simp [interrupted_eq]
@[simp] theorem takeReset_platform (s : State) :
    (takeReset s).plat = s.plat ∧ (takeReset s).lines = s.lines := by simp [takeReset]

@[simp] theorem writeProduct_platform (f : Bool) (rd : Reg) (v : Word) (s : State) :
    (writeProduct f rd v s).plat = s.plat ∧ (writeProduct f rd v s).lines = s.lines := by
  cases f <;> simp [writeProduct]
@[simp] theorem writeLongProduct_platform (f : Bool) (hi lo : Reg) (v : BitVec 64) (s : State) :
    (writeLongProduct f hi lo v s).plat = s.plat ∧ (writeLongProduct f hi lo v s).lines = s.lines := by
  cases f <;> simp [writeLongProduct]
@[simp] theorem moveFromStatus_platform (p : Psr) (rd : Reg) (s : State) :
    (moveFromStatus p rd s).plat = s.plat ∧ (moveFromStatus p rd s).lines = s.lines := by simp [moveFromStatus]
@[simp] theorem thumbWriteHigh_platform (d : Reg) (v : Word) (s : State) :
    (thumbWriteHigh d v s).plat = s.plat ∧ (thumbWriteHigh d v s).lines = s.lines := by
  unfold thumbWriteHigh
  split <;> simp

/-- Registers loaded by a block load leave the platform and the lines. -/
theorem platformKept_withLoaded (s : State) (vs : List (Reg × Word)) : platformKept s (s.withLoaded vs) := by
  induction vs generalizing s with
  | nil => exact ⟨rfl, rfl⟩
  | cons x rest ih =>
    have hx : platformKept s (s.writeReg x.1 x.2) := by simp [platformKept]
    exact hx.trans (ih _)

theorem platformKept_withLoadedUser (s : State) (vs : List (Reg × Word)) : platformKept s (s.withLoadedUser vs) := by
  induction vs generalizing s with
  | nil => exact ⟨rfl, rfl⟩
  | cons x rest ih =>
    have hx : platformKept s (s.writeUserReg x.1 x.2) := by simp [platformKept]
    exact hx.trans (ih _)

theorem platformKept_writeBlock {p : Privilege} {s t : State} {a : Word} {vs : List Word} {b : Bool}
    (h : writeBlock p s a vs = some (t, b)) : platformKept s t := by
  obtain ⟨e, -⟩ := writeBlock_kept h
  rw [e]
  exact ⟨rfl, rfl⟩

/-! ## Shared operations -/

theorem keepsPlatform_guarded {r : Option Refusal} {s : State} {body : Result} (h : KeepsPlatform s body) :
    KeepsPlatform s (guarded r body) :=
  ⟨fun t ht => h.of_next t (guarded_next ht).2⟩

/-- An instruction whose condition fails only advances, so its body decides. -/
theorem keepsPlatform_conditional {c : Cond} {s : State} {body : Result} (h : KeepsPlatform s body) :
    KeepsPlatform s (conditional c s body) := by
  refine ⟨fun t ht => ?_⟩
  rcases conditional_next ht with ⟨-, hb⟩ | ⟨-, rfl⟩
  · exact h.of_next t hb
  · simp [platformKept]

theorem keepsPlatform_raised {e : Exception} {take : State → State} {s : State} (h : platformKept s (take s)) :
    KeepsPlatform s (raised e take s) := keepsPlatform_guarded (.next h)

theorem keepsPlatform_jumpExact (a : Word) (s : State) : KeepsPlatform s (jumpExact a s) := by
  refine ⟨fun t ht => ?_⟩
  obtain ⟨-, rfl⟩ := jumpExact_next ht
  simp [platformKept]

theorem keepsPlatform_exchangeTo (a : Word) (s : State) : KeepsPlatform s (exchangeTo a s) := by
  refine ⟨fun t ht => ?_⟩
  rcases exchangeTo_next ht with ⟨-, rfl⟩ | ⟨-, -, rfl⟩ <;> simp [platformKept]

theorem keepsPlatform_exceptionReturn (a : Word) (s : State) : KeepsPlatform s (exceptionReturn a s) := by
  refine ⟨fun t ht => ?_⟩
  obtain ⟨p, -, -, ⟨-, rfl⟩ | ⟨-, -, rfl⟩⟩ := exceptionReturn_next ht <;> simp [platformKept]

theorem keepsPlatform_dataProcess (op : AluOp) (f : Bool) (rn rd : Reg) (o : Shifted) (s : State) :
    KeepsPlatform s (dataProcess op f rn rd o s) := by
  refine ⟨fun t ht => ?_⟩
  rcases dataProcess_next ht with ⟨-, rfl⟩ | ⟨-, -, -, hr⟩ | ⟨-, -, -, hj⟩ | ⟨-, -, rfl⟩
  · simp [platformKept]
  · exact (keepsPlatform_exceptionReturn _ s).of_next t hr
  · exact (keepsPlatform_jumpExact _ s).of_next t hj
  · cases f <;> simp [platformKept]

theorem keepsPlatform_load (k : LoadKind) (p : Privilege) (rn rd : Reg) (a : Address) (s : State) :
    KeepsPlatform s (load k p rn rd a s) := by
  refine ⟨fun t ht => ?_⟩
  obtain ⟨-, ⟨-, rfl⟩ | ⟨-, -, rfl⟩ | ⟨-, -, rfl⟩⟩ := load_next ht <;> simp [platformKept]

theorem keepsPlatform_store (k : StoreKind) (p : Privilege) (rn : Reg) (v : Word) (a : Address) (s : State) :
    KeepsPlatform s (store k p rn v a s) := by
  refine ⟨fun t ht => ?_⟩
  obtain ⟨-, ⟨-, rfl⟩ | ⟨-, rfl⟩⟩ := store_next ht <;> simp [platformKept]

/-- A block load keeps the platform if the placing of its words and its ending do. -/
theorem keepsPlatform_loadBlock {rn : Reg} {base a : Word} {rs : List Reg} {wb : Option Word}
    {place : State → List (Reg × Word) → State} {finish : Option Word → State → Result}
    (hplace : ∀ u vs, platformKept u (place u vs)) (hfinish : ∀ pc u, KeepsPlatform u (finish pc u)) (s : State) :
    KeepsPlatform s (loadBlock rn base a rs wb place finish s) := by
  refine ⟨fun t ht => ?_⟩
  rcases loadBlock_next ht with ⟨-, rfl⟩ | ⟨-, hf⟩
  · have habort : ∀ u, platformKept u (takeDataAbort (abortedLoad rn base wb u)) := fun u => by
      simp [platformKept, abortedLoad]
    exact (hplace s _).trans (habort _)
  · have hbase : platformKept s (s.writtenBack rn wb) := by simp [platformKept]
    exact (hbase.trans (hplace _ _)).trans ((hfinish _ _).of_next t hf)

theorem keepsPlatform_storeBlock (rn : Reg) (a : Word) (vs : List Word) (wb : Option Word) (s : State) :
    KeepsPlatform s (storeBlock rn a vs wb s) := by
  refine ⟨fun t ht => ?_⟩
  obtain ⟨u, b, hu, rfl⟩ := storeBlock_next ht
  exact (platformKept_writeBlock hu).trans (by cases b <;> simp [platformKept])

/-- A coprocessor instruction keeps the platform if what it does when accepted does: a reply used up is none of
the platform. -/
theorem keepsPlatform_offered {c : Cond} {cp : BitVec 4} {r : Option Refusal}
    {accept : Word → List Word → State → Result} (h : ∀ w ws u, KeepsPlatform u (accept w ws u)) (s : State) :
    KeepsPlatform s (offered c cp r accept s) := by
  refine ⟨fun t ht => ?_⟩
  rcases offered_next ht with ⟨-, rfl⟩ | ⟨-, -, ⟨-, rfl⟩ | ⟨-, -, ⟨-, rfl⟩ | ⟨_, -, rfl⟩ | ⟨w, ws, _, -, ha⟩⟩⟩
  · simp [platformKept]
  · simp [platformKept]
  · exact ⟨rfl, rfl⟩
  · exact ⟨rfl, rfl⟩
  · have hreply : ∀ rest, platformKept s { s with replies := rest } := fun _ => ⟨rfl, rfl⟩
    exact (hreply _).trans ((h w ws _).of_next t ha)

/-! ## The forms of the ARM instructions -/

theorem keepsPlatform_dataImmediate (op : AluOp) (c : Cond) (f : Bool) (rn rd : Reg) (rot : BitVec 4) (imm : BitVec 8)
    (s : State) : KeepsPlatform s (dataImmediate op c f rn rd rot imm s) :=
  keepsPlatform_conditional (keepsPlatform_dataProcess ..)

theorem keepsPlatform_dataShiftImmediate (op : AluOp) (c : Cond) (f : Bool) (rn rd : Reg) (n : BitVec 5) (sh : Shift)
    (rm : Reg) (s : State) : KeepsPlatform s (dataShiftImmediate op c f rn rd n sh rm s) :=
  keepsPlatform_conditional (keepsPlatform_dataProcess ..)

theorem keepsPlatform_dataShiftRegister (op : AluOp) (c : Cond) (f : Bool) (rn rd rs : Reg) (sh : Shift) (rm : Reg)
    (s : State) : KeepsPlatform s (dataShiftRegister op c f rn rd rs sh rm s) :=
  keepsPlatform_conditional (keepsPlatform_guarded (keepsPlatform_dataProcess ..))

theorem keepsPlatform_execMrs (c : Cond) (r : Bool) (rd : Reg) (s : State) : KeepsPlatform s (execMrs c r rd s) := by
  refine keepsPlatform_conditional (keepsPlatform_guarded ?_)
  split
  · split
    · exact .next (by simp [platformKept])
    · exact .refused ..
  · exact .next (by simp [platformKept])

theorem keepsPlatform_moveToSpsr (mask : BitVec 4) (w : Word) (s : State) : KeepsPlatform s (moveToSpsr mask w s) := by
  unfold moveToSpsr
  split
  · exact .next (by simp [platformKept])
  · exact .refused ..

theorem keepsPlatform_moveToCpsr (mask : BitVec 4) (w : Word) (s : State) : KeepsPlatform s (moveToCpsr mask w s) := by
  unfold moveToCpsr
  split
  · exact .next (by simp [platformKept])
  · split
    · exact .refused ..
    · split
      · exact .fault ..
      · exact .next (by simp [platformKept])

theorem keepsPlatform_moveToStatus (r : Bool) (mask : BitVec 4) (w : Word) (s : State) :
    KeepsPlatform s (if r then moveToSpsr mask w s else moveToCpsr mask w s) := by
  cases r
  · exact keepsPlatform_moveToCpsr mask w s
  · exact keepsPlatform_moveToSpsr mask w s

theorem keepsPlatform_swap (l : LoadKind) (k : StoreKind) (rn rd rm : Reg) (s : State) :
    KeepsPlatform s (swap l k rn rd rm s) := by
  have abort : KeepsPlatform s (raised .dataAbort takeDataAbort s) := keepsPlatform_raised (takeDataAbort_platform s)
  unfold swap
  simp only
  split
  · exact .fault ..
  · exact abort
  · split
    · exact .fault ..
    · exact abort
    · exact .next (by simp [platformKept])

theorem keepsPlatform_singleLoad (k : LoadKind) (noPc : Bool) (priv : Privilege) (c : Cond) (p u w : Bool)
    (rn rd : Reg) (off : Word) (rm : Option Reg) (s : State) :
    KeepsPlatform s (singleLoad k noPc priv c p u w rn rd off rm s) :=
  keepsPlatform_conditional (keepsPlatform_guarded (keepsPlatform_load ..))

theorem keepsPlatform_singleStore (k : StoreKind) (noPc : Bool) (priv : Privilege) (c : Cond) (p u w : Bool)
    (rn rd : Reg) (off : Word) (rm : Option Reg) (s : State) :
    KeepsPlatform s (singleStore k noPc priv c p u w rn rd off rm s) :=
  keepsPlatform_conditional (keepsPlatform_guarded (keepsPlatform_store ..))

theorem keepsPlatform_halfFormatLoad (k : LoadKind) (c : Cond) (p u w : Bool) (rn rd : Reg) (off : Word)
    (rm : Option Reg) (s : State) : KeepsPlatform s (halfFormatLoad k c p u w rn rd off rm s) :=
  keepsPlatform_conditional (keepsPlatform_guarded (keepsPlatform_guarded (keepsPlatform_load ..)))

theorem keepsPlatform_halfFormatStore (c : Cond) (p u w : Bool) (rn rd : Reg) (off : Word)
    (rm : Option Reg) (s : State) : KeepsPlatform s (halfFormatStore c p u w rn rd off rm s) :=
  keepsPlatform_conditional (keepsPlatform_guarded (keepsPlatform_guarded (keepsPlatform_store ..)))

theorem keepsPlatform_finishLoad (pc : Option Word) (s : State) : KeepsPlatform s (finishLoad pc s) := by
  cases pc <;> exact .next (by simp [platformKept])

theorem keepsPlatform_finishReturn (pc : Option Word) (s : State) : KeepsPlatform s (finishReturn pc s) := by
  cases pc with
  | none => exact .next (by simp [platformKept])
  | some v => exact keepsPlatform_exceptionReturn v s

theorem keepsPlatform_leavesUserBank {s : State} {r : Result} (h : KeepsPlatform s r) :
    KeepsPlatform s (leavesUserBank r) := by
  cases r with
  | next u => exact .next (h.of_next u rfl)
  | fault x => exact .fault s x
  | refused x => exact .refused s x

theorem keepsPlatform_execLdm2 (c : Cond) (p u w : Bool) (rn : Reg) (list : BitVec 15) (s : State) :
    KeepsPlatform s (execLdm2 c p u w rn list s) :=
  keepsPlatform_conditional (keepsPlatform_guarded (keepsPlatform_guarded (keepsPlatform_leavesUserBank
    (keepsPlatform_loadBlock platformKept_withLoadedUser keepsPlatform_finishLoad s))))

theorem keepsPlatform_execStm2 (c : Cond) (p u w : Bool) (rn : Reg) (list : BitVec 16) (s : State) :
    KeepsPlatform s (execStm2 c p u w rn list s) :=
  keepsPlatform_conditional (keepsPlatform_guarded (keepsPlatform_guarded (keepsPlatform_leavesUserBank
    (keepsPlatform_storeBlock ..))))

theorem keepsPlatform_execMcr (c : Cond) (op1 : BitVec 3) (crn rd cp : Reg) (op2 : BitVec 3) (crm : Reg) (s : State) :
    KeepsPlatform s (execMcr c op1 crn rd cp op2 crm s) := by
  refine keepsPlatform_offered (fun _ _ u => ?_) s
  split <;> exact .next (by simp [platformKept])

theorem keepsPlatform_execMrc (c : Cond) (op1 : BitVec 3) (crn rd cp : Reg) (op2 : BitVec 3) (crm : Reg) (s : State) :
    KeepsPlatform s (execMrc c op1 crn rd cp op2 crm s) := by
  refine keepsPlatform_offered (fun _ _ u => ?_) s
  split <;> exact .next (by simp [platformKept])

theorem keepsPlatform_execLdc (c : Cond) (p u n w : Bool) (rn crd cp : Reg) (off : BitVec 8) (s : State) :
    KeepsPlatform s (execLdc c p u n w rn crd cp off s) := by
  refine keepsPlatform_offered (fun _ _ v => ?_) s
  simp only
  split
  · exact .fault ..
  · exact .after (by simp [platformKept]) (keepsPlatform_raised (takeDataAbort_platform _))
  · exact .next (by simp [platformKept])

theorem keepsPlatform_execStc (c : Cond) (p u n w : Bool) (rn crd cp : Reg) (off : BitVec 8) (s : State) :
    KeepsPlatform s (execStc c p u n w rn crd cp off s) :=
  keepsPlatform_offered (fun _ _ _ => keepsPlatform_storeBlock ..) s

/-! ## The forms of the Thumb instructions -/

theorem keepsPlatform_thumbData (op : AluOp) (rn rd : LowReg) (o : Shifted) (s : State) :
    KeepsPlatform s (thumbData op rn rd o s) := keepsPlatform_dataProcess ..

theorem keepsPlatform_thumbShiftImmediate (sh : Shift) (n : BitVec 5) (rs rd : LowReg) (s : State) :
    KeepsPlatform s (thumbShiftImmediate sh n rs rd s) := keepsPlatform_thumbData ..

theorem keepsPlatform_thumbShiftRegister (sh : Shift) (rs rd : LowReg) (s : State) :
    KeepsPlatform s (thumbShiftRegister sh rs rd s) := keepsPlatform_thumbData ..

theorem keepsPlatform_thumbLoad (k : LoadKind) (rd : LowReg) (a : Word) (s : State) :
    KeepsPlatform s (thumbLoad k rd a s) := keepsPlatform_load ..

theorem keepsPlatform_thumbStore (k : StoreKind) (rd : LowReg) (a : Word) (s : State) :
    KeepsPlatform s (thumbStore k rd a s) := keepsPlatform_store ..

theorem keepsPlatform_finishPop (pc : Option Word) (s : State) : KeepsPlatform s (finishPop pc s) := by
  cases pc <;> exact .next (by simp [platformKept])

theorem keepsPlatform_thumbBranchIf (c : Cond) (off : BitVec 8) (s : State) :
    KeepsPlatform s (thumbBranchIf c off s) := by
  unfold thumbBranchIf
  split <;> exact .next (by simp [platformKept])

/-! ## Every instruction, and the step -/

/-- No instruction changes the platform or the lines to come: each is one of the forms above. -/
theorem keepsPlatform_exec (i : Instr) (s : State) : KeepsPlatform s (exec i s) := by
  unfold exec
  cases i with
  | andImm | eorImm | subImm | rsbImm | addImm | adcImm | sbcImm | rscImm | tstImm | teqImm | cmpImm | cmnImm
  | orrImm | movImm | bicImm | mvnImm => exact keepsPlatform_dataImmediate ..
  | andShImm | eorShImm | subShImm | rsbShImm | addShImm | adcShImm | sbcShImm | rscShImm | tstShImm | teqShImm
  | cmpShImm | cmnShImm | orrShImm | movShImm | bicShImm | mvnShImm => exact keepsPlatform_dataShiftImmediate ..
  | andShReg | eorShReg | subShReg | rsbShReg | addShReg | adcShReg | sbcShReg | rscShReg | tstShReg | teqShReg
  | cmpShReg | cmnShReg | orrShReg | movShReg | bicShReg | mvnShReg => exact keepsPlatform_dataShiftRegister ..
  | mrs => exact keepsPlatform_execMrs ..
  | msrReg => exact keepsPlatform_conditional (keepsPlatform_guarded (keepsPlatform_moveToStatus ..))
  | msrImm => exact keepsPlatform_conditional (keepsPlatform_moveToStatus ..)
  | bx => exact keepsPlatform_conditional (keepsPlatform_exchangeTo ..)
  | b | bl => exact keepsPlatform_conditional (.next (by simp [platformKept]))
  | mul | mla =>
    exact keepsPlatform_conditional (keepsPlatform_guarded (keepsPlatform_guarded
      (.next (writeProduct_platform ..))))
  | umull | umlal | smull | smlal =>
    exact keepsPlatform_conditional (keepsPlatform_guarded (.next (writeLongProduct_platform ..)))
  | swp | swpb => exact keepsPlatform_conditional (keepsPlatform_guarded (keepsPlatform_swap ..))
  | strhReg | strhImm => exact keepsPlatform_halfFormatStore ..
  | ldrhReg | ldrhImm | ldrsbReg | ldrsbImm | ldrshReg | ldrshImm => exact keepsPlatform_halfFormatLoad ..
  | strImm | strImmPost | strtImm | strReg | strRegPost | strtReg | strbImm | strbImmPost | strbtImm | strbReg
  | strbRegPost | strbtReg => exact keepsPlatform_singleStore ..
  | ldrImm | ldrImmPost | ldrtImm | ldrReg | ldrRegPost | ldrtReg | ldrbImm | ldrbImmPost | ldrbtImm | ldrbReg
  | ldrbRegPost | ldrbtReg => exact keepsPlatform_singleLoad ..
  | undefined => exact keepsPlatform_conditional (keepsPlatform_raised (takeUndefined_platform s))
  | swi => exact keepsPlatform_conditional (keepsPlatform_raised (takeSwi_platform s))
  | ldm1 =>
    exact keepsPlatform_conditional (keepsPlatform_guarded (keepsPlatform_guarded
      (keepsPlatform_loadBlock platformKept_withLoaded keepsPlatform_finishLoad s)))
  | ldm2 => exact keepsPlatform_execLdm2 ..
  | ldm3 =>
    exact keepsPlatform_conditional (keepsPlatform_guarded (keepsPlatform_guarded (keepsPlatform_guarded
      (keepsPlatform_loadBlock platformKept_withLoaded keepsPlatform_finishReturn s))))
  | stm1 =>
    exact keepsPlatform_conditional (keepsPlatform_guarded (keepsPlatform_guarded
      (keepsPlatform_storeBlock ..)))
  | stm2 => exact keepsPlatform_execStm2 ..
  | cdp => exact keepsPlatform_offered (fun _ _ u => .next (by simp [platformKept])) s
  | mcr => exact keepsPlatform_execMcr ..
  | mrc => exact keepsPlatform_execMrc ..
  | ldc => exact keepsPlatform_execLdc ..
  | stc => exact keepsPlatform_execStc ..
  | tAddReg | tSubReg | tAddImm3 | tSubImm3 | tMovImm8 | tCmpImm8 | tAddImm8 | tSubImm8 | tAnd | tEor | tAdc | tSbc
  | tTst | tNeg | tCmp | tCmn | tOrr | tBic | tMvn => exact keepsPlatform_thumbData ..
  | tLslImm | tLsrImm | tAsrImm => exact keepsPlatform_thumbShiftImmediate ..
  | tLslReg | tLsrReg | tAsrReg | tRorReg => exact keepsPlatform_thumbShiftRegister ..
  | tMul => exact keepsPlatform_guarded (.next (writeProduct_platform ..))
  | tAddHi | tMovHi => exact keepsPlatform_guarded (.next (thumbWriteHigh_platform ..))
  | tCmpHi => exact keepsPlatform_guarded (keepsPlatform_guarded (keepsPlatform_dataProcess ..))
  | tBx => exact keepsPlatform_exchangeTo ..
  | tLdrPc | tLdrReg | tLdrbReg | tLdsbReg | tLdrhReg | tLdshReg | tLdrImm | tLdrbImm | tLdrhImm | tLdrSp =>
    exact keepsPlatform_thumbLoad ..
  | tStrReg | tStrbReg | tStrhReg | tStrImm | tStrbImm | tStrhImm | tStrSp => exact keepsPlatform_thumbStore ..
  | tAddPc | tAddSp | tSpUp | tSpDown | tB | tBlPrefix | tBlSuffix => exact .next (by simp [platformKept])
  | tPush => exact keepsPlatform_guarded (keepsPlatform_storeBlock ..)
  | tStmia => exact keepsPlatform_guarded (keepsPlatform_guarded (keepsPlatform_storeBlock ..))
  | tPop | tLdmia =>
    exact keepsPlatform_guarded (keepsPlatform_loadBlock platformKept_withLoaded keepsPlatform_finishPop s)
  | tBeq | tBne | tBcs | tBcc | tBmi | tBpl | tBvs | tBvc | tBhi | tBls | tBge | tBlt | tBgt | tBle =>
    exact keepsPlatform_thumbBranchIf ..
  | tUndefined | tUndefinedSpace => exact keepsPlatform_raised (takeUndefined_platform s)
  | tSwi => exact keepsPlatform_raised (takeSwi_platform s)

theorem keepsPlatform_runInstruction (s : State) : KeepsPlatform s (runInstruction s) := by
  unfold runInstruction
  split
  · exact .refused ..
  · split
    · exact .refused ..
    · exact .after (by simp [platformKept]) (keepsPlatform_exec _ s.started)

theorem keepsPlatform_fetchAndRun (s : State) : KeepsPlatform s (fetchAndRun s) := by
  unfold fetchAndRun
  split
  · exact .next (interrupted_platform .prefetchAbort s)
  · exact .fault ..
  · exact keepsPlatform_runInstruction s

/-- Whatever a step does, it does after the sampling of the lines and then keeps the platform and the lines to
come. -/
theorem keepsPlatform_step (s : State) : KeepsPlatform s.linesSampled (step s) := by
  unfold step cycle
  simp only
  split
  · exact .next (takeReset_platform _)
  · split
    · exact .fault ..
    · split
      · exact .refused ..
      · split
        · exact .next (interrupted_platform .fiq _)
        · split
          · exact .next (interrupted_platform .irq _)
          · exact keepsPlatform_fetchAndRun _

/-- Settles O12: after the sampling of the lines every branch of the step, and every instruction, keeps the
platform and the lines to come. -/
theorem platformKeptByStep : Obligations.PlatformKeptByStep := by
  unfold Obligations.PlatformKeptByStep
  exact fun s => (keepsPlatform_step s).of_next

end Sys2Proof.Machine
end

section
/-! SUPPORT. Small facts of 10_state.md: what reset leaves, what r15 reads as, masked interrupts, and MSR in User mode
(R31, R42, R49, R59). -/

namespace Sys2Proof.Machine

/-- Settles O10: each part is a field of the state of reset. -/
theorem resetState : Obligations.ResetState := by
  unfold Obligations.ResetState
  exact ⟨rfl, rfl, rfl, rfl, rfl, rfl, rfl⟩

/-- Settles O20: r15 reads as the value of the pc, in ARM and in Thumb state. -/
theorem readsOfPc : Obligations.ReadsOfPc := by
  unfold Obligations.ReadsOfPc
  intro s
  rw [State.readReg_pc, State.pcValue]
  split <;> rfl

/-- The step where one sample of the lines is left or more: the order of 60 R372, the sample used up. -/
theorem step_lines_cons (s : State) (l : Lines) (rest : List Lines) :
    step { s with lines := l :: rest } =
      if l.reset then .next (takeReset { s with lines := rest })
      else if modeOfBits s.cpsr.m = none then .fault .illegalMode
      else if s.pastTop then .refused .pastTop
      else if l.fiq && !s.cpsr.f then .next (takeFiq { s with lines := rest })
      else if l.irq && !s.cpsr.i then .next (takeIrq { s with lines := rest })
      else fetchAndRun { s with lines := rest } := rfl

/-- Settles O8: the step asks for the FIQ line only together with F = 0, for the IRQ line only with I = 0. -/
theorem maskedInterruptsNotTaken : Obligations.MaskedInterruptsNotTaken := by
  unfold Obligations.MaskedInterruptsNotTaken
  refine fun s reset line rest => ⟨fun hf => ?_, fun hi => ?_⟩
  · simp only [step_lines_cons, hf, Bool.not_true, Bool.and_false]
  · simp only [step_lines_cons, hi, Bool.not_true, Bool.and_false]

/-! ## MSR in User mode (R49) -/

/-- The mask of an MSR in User mode selects the f field, if the instruction does, and nothing else. -/
theorem Psr.masked_flags (p : Psr) (mask : BitVec 4) (w : Word) :
    p.masked (mask &&& 0b1000#4) w = if mask.getLsbD 3 then p.withFlagField w else p := by
  have hf : (mask &&& 0b1000#4).getLsbD 3 = mask.getLsbD 3 := by simp
  have hc : (mask &&& 0b1000#4).getLsbD 0 = false := by simp
  simp only [Psr.masked, hf, hc, Bool.false_eq_true, if_false]

theorem moveToCpsr_usr {s : State} (h : s.mode = .usr) (mask : BitVec 4) (w : Word) :
    moveToCpsr mask w s =
      .next (s.withCpsr (if mask.getLsbD 3 then s.cpsr.withFlagField w else s.cpsr)).advance := by
  rw [moveToCpsr, if_pos h, Psr.masked_flags]

/-- An MSR to the CPSR whose condition passes moves its operand. -/
theorem exec_msr_cpsr {i : Instr} {c : Cond} {mask : BitVec 4} {v : Word} {s : State}
    (hi : isMsr i c false mask v s) (hc : condHolds c s.cpsr = true) : exec i s = moveToCpsr mask v s := by
  rcases hi with ⟨rm, hrm, rfl, rfl⟩ | ⟨rot, imm, rfl, rfl⟩
  · have hpc : pcRefusal [rm] = none := by simpa [pcRefusal] using Ne.symm hrm
    exact (conditional_pass hc _).trans (by rw [hpc]; rfl)
  · exact conditional_pass hc _

/-- The instruction length is 2 in Thumb state and 4 in ARM state. -/
theorem ofNat_size (s : State) : BitVec.ofNat 32 s.size = if s.cpsr.t then 2 else 4 := by
  unfold State.size
  split <;> rfl

/-- An advance with the pc, T and the records of stores as they were goes on in sequence. -/
theorem inSequence_advance {s u : State} (hc : u.cur = s.cur) (ht : u.cpsr.t = s.cpsr.t)
    (hr : u.recentStores = s.recentStores) (hs : u.currentStores = s.currentStores) : inSequence s u.advance := by
  have hz : u.size = s.size := by rw [State.size, ht, State.size]
  refine ⟨⟨⟨?_, ?_, hr, rfl⟩, rfl⟩, hs⟩
  · rw [State.advance_cur, hc, hz, ofNat_size]
  · rw [State.advance_pastTop, hc, hz, State.size]

/-- A write of the CPSR that keeps T, and the advance after it, change nothing but the CPSR and the pc. -/
theorem advance_withCpsr_frame (s : State) {q : Psr} (ht : q.t = s.cpsr.t) :
    let t := (s.withCpsr q).advance
    regsKeptBut [] s t ∧ bytesKept s t ∧ spsrsKept s t ∧ outsideKept s t ∧ inSequence s t :=
  ⟨fun _ _ => rfl, fun _ => rfl, ⟨rfl, rfl, rfl, rfl, rfl⟩, ⟨rfl, rfl, rfl, rfl⟩, inSequence_advance rfl ht rfl rfl⟩

/-- Settles O31: the MSR completes with the f field moved, if selected, and advances. -/
theorem msrUserMode : Obligations.MsrUserMode := by
  unfold Obligations.MsrUserMode
  intro i c mask v s hu hc hi
  refine ⟨_, (exec_msr_cpsr hi hc).trans (moveToCpsr_usr hu mask v), ?_⟩
  have ht : (if mask.getLsbD 3 then s.cpsr.withFlagField v else s.cpsr).t = s.cpsr.t := by split <;> rfl
  obtain ⟨hregs, hbytes, hspsrs, hout, hseq⟩ := advance_withCpsr_frame s ht
  refine ⟨?_, hregs, hbytes, ⟨?_, hspsrs, hout⟩, hseq⟩
  · cases mask.getLsbD 3 <;> exact ⟨rfl, rfl, rfl, rfl⟩
  · cases mask.getLsbD 3 <;> exact ⟨rfl, rfl, rfl, rfl, rfl⟩

end Sys2Proof.Machine
end

section
/-! SUPPORT. Addresses aligned for an instruction set (10_state.md R30, R33), and which set an instruction is of
(30_encoding.md R90). -/

namespace Sys2Proof.Machine

/-! ## Alignment -/

/-- An address is aligned for the instruction set: bit 0 is 0 in Thumb state, bits 1:0 are 00 in ARM state. -/
def alignedFor (thumb : Bool) (a : Word) : Bool := if thumb then !a.getLsbD 0 else a.extractLsb' 0 2 == 0#2

theorem State.aligned_eq (s : State) : s.aligned = alignedFor s.cpsr.t s.cur := rfl

/-- Aligned is: a multiple of the length of an instruction. -/
theorem alignedFor_iff (thumb : Bool) (a : Word) :
    alignedFor thumb a = true ↔ a.toNat % (if thumb then 2 else 4) = 0 := by
  cases thumb with
  | true => simp [alignedFor, BitVec.getLsbD]
  | false => simp [alignedFor, ← BitVec.toNat_inj]

theorem alignedFor_of_mod_four (thumb : Bool) {a : Word} (h : a.toNat % 4 = 0) : alignedFor thumb a = true := by
  rw [alignedFor_iff]
  split <;> omega

theorem alignedFor_wordAligned (thumb : Bool) (a : Word) : alignedFor thumb (wordAligned a) = true :=
  alignedFor_of_mod_four thumb (by rw [wordAligned_toNat]; omega)

theorem alignedFor_halfAligned (a : Word) : alignedFor true (halfAligned a) = true := by
  rw [alignedFor_iff, halfAligned_toNat]
  simp

/-- An address whose bits 1:0 are 00 is aligned for both. -/
theorem alignedFor_of_extract (thumb : Bool) {a : Word} (h : a.extractLsb' 0 2 = 0#2) : alignedFor thumb a = true :=
  alignedFor_of_mod_four thumb ((alignedFor_iff false a).1 (by simp [alignedFor, h]))

theorem alignedFor_add {thumb : Bool} {a d : Word} (ha : alignedFor thumb a = true) (hd : alignedFor thumb d = true) :
    alignedFor thumb (a + d) = true := by
  rw [alignedFor_iff] at *
  rw [BitVec.toNat_add]
  cases thumb <;> simp only [if_true, Bool.false_eq_true, if_false] at * <;> omega

/-- The length of an instruction keeps the alignment. -/
theorem alignedFor_size (s : State) : alignedFor s.cpsr.t (BitVec.ofNat 32 s.size) = true := by
  unfold State.size
  cases s.cpsr.t <;> rfl

/-- A word offset of an ARM branch keeps the alignment. -/
theorem alignedFor_shiftLeft_two (thumb : Bool) (x : Word) : alignedFor thumb (x <<< 2) = true := by
  refine alignedFor_of_mod_four thumb ?_
  rw [BitVec.toNat_shiftLeft, Nat.shiftLeft_eq]
  omega

/-- A halfword offset of a Thumb branch keeps the alignment. -/
theorem alignedFor_shiftLeft_one (x : Word) : alignedFor true (x <<< 1) = true := by
  rw [alignedFor_iff, BitVec.toNat_shiftLeft, Nat.shiftLeft_eq]
  simp only [if_true]
  omega

/-! ## The instruction set of an instruction -/

/-- An instruction of the Thumb set: its code is a halfword. -/
def thumbSet (i : Instr) : Bool :=
  match encode i with
  | .thumb _ => true
  | .arm _ => false

/-- A decoder gives ARM instructions alone. -/
structure ArmOnly (x : Except DecodeError Instr) : Prop where
  of_ok : ∀ i, x = .ok i → thumbSet i = false

theorem ArmOnly.ok {i : Instr} (h : thumbSet i = false) : ArmOnly (.ok i) := ⟨by rintro _ ⟨⟩; exact h⟩

theorem ArmOnly.error (e : DecodeError) : ArmOnly (.error e) := ⟨by rintro _ ⟨⟩⟩

theorem thumbSet_dpImm (op : AluOp) (c : Cond) (f : Bool) (rn rd : Reg) (rot : BitVec 4) (imm : BitVec 8) :
    thumbSet (Instr.dpImm op c f rn rd rot imm) = false := by cases op <;> rfl

theorem thumbSet_dpShImm (op : AluOp) (c : Cond) (f : Bool) (rn rd : Reg) (n : BitVec 5) (sh : Shift) (rm : Reg) :
    thumbSet (Instr.dpShImm op c f rn rd n sh rm) = false := by cases op <;> rfl

theorem thumbSet_dpShReg (op : AluOp) (c : Cond) (f : Bool) (rn rd rs : Reg) (sh : Shift) (rm : Reg) :
    thumbSet (Instr.dpShReg op c f rn rd rs sh rm) = false := by cases op <;> rfl

theorem ArmOnly.ite {p : Prop} [Decidable p] {x y : Except DecodeError Instr} (hx : ArmOnly x) (hy : ArmOnly y) :
    ArmOnly (if p then x else y) := by
  split
  · exact hx
  · exact hy

theorem armOnly_decodeMultiply (c : Cond) (w : Word) : ArmOnly (decodeMultiply c w) := by
  unfold decodeMultiply
  simp only
  split
  case h_1 => exact .ite (.ok rfl) (.error _)
  case h_7 => exact .error _
  all_goals exact .ok rfl

theorem armOnly_decodeSwap (c : Cond) (w : Word) : ArmOnly (decodeSwap c w) :=
  .ite (.ite (.ite (.ok rfl) (.ok rfl)) (.error _)) (.error _)

theorem armOnly_decodeHalf (c : Cond) (w : Word) : ArmOnly (decodeHalf c w) := by
  unfold decodeHalf
  refine .ite (.error _) (.ite ?_ (.ite ?_ (.error _)))
  all_goals
    split
    · exact .ite (.ok rfl) (.ok rfl)
    · exact .ok rfl
    · exact .ok rfl

theorem armOnly_decodeBx (c : Cond) (w : Word) : ArmOnly (decodeBx c w) :=
  .ite (.ite (.ok rfl) (.error _)) (.error _)

theorem armOnly_decodeStatus (c : Cond) (w : Word) : ArmOnly (decodeStatus c w) :=
  .ite (.ite (.ok rfl) (.error _)) (.ite (.ok rfl) (.error _))

theorem armOnly_decodeStatusImm (c : Cond) (w : Word) : ArmOnly (decodeStatusImm c w) :=
  .ite (.ite (.ok rfl) (.error _)) (.error _)

theorem armOnly_decodeDpImm (c : Cond) (w : Word) : ArmOnly (decodeDpImm c w) :=
  .ite (.ok (thumbSet_dpImm ..)) (.error _)

theorem armOnly_decodeDpShImm (c : Cond) (w : Word) : ArmOnly (decodeDpShImm c w) :=
  .ite (.ok (thumbSet_dpShImm ..)) (.error _)

theorem armOnly_decodeDpShReg (c : Cond) (w : Word) : ArmOnly (decodeDpShReg c w) :=
  .ite (.ok (thumbSet_dpShReg ..)) (.error _)

theorem thumbSet_decodeTransferImm (c : Cond) (w : Word) : thumbSet (decodeTransferImm c w) = false := by
  unfold decodeTransferImm
  simp only
  split_ifs <;> rfl

theorem thumbSet_decodeTransferReg (c : Cond) (w : Word) : thumbSet (decodeTransferReg c w) = false := by
  unfold decodeTransferReg
  simp only
  split_ifs <;> rfl

theorem thumbSet_decodeBlock (c : Cond) (w : Word) : thumbSet (decodeBlock c w) = false := by
  unfold decodeBlock
  simp only
  split_ifs <;> rfl

theorem thumbSet_decodeCoprocTransfer (c : Cond) (w : Word) : thumbSet (decodeCoprocTransfer c w) = false := by
  unfold decodeCoprocTransfer
  simp only
  split_ifs <;> rfl

theorem thumbSet_decodeCoprocOrSwi (c : Cond) (w : Word) : thumbSet (decodeCoprocOrSwi c w) = false := by
  unfold decodeCoprocOrSwi
  simp only
  split_ifs <;> rfl

theorem armOnly_decodeClass0 (c : Cond) (w : Word) : ArmOnly (decodeClass0 c w) :=
  .ite
    (.ite (.ite (.ite (armOnly_decodeSwap c w) (armOnly_decodeMultiply c w)) (armOnly_decodeHalf c w))
      (.ite (armOnly_decodeBx c w) (armOnly_decodeDpShReg c w)))
    (.ite (armOnly_decodeStatus c w) (armOnly_decodeDpShImm c w))

theorem armOnly_decodeTree (c : Cond) (w : Word) : ArmOnly (decodeTree c w) := by
  unfold decodeTree
  split
  · exact armOnly_decodeClass0 c w
  · exact .ite (armOnly_decodeStatusImm c w) (armOnly_decodeDpImm c w)
  · exact .ok (thumbSet_decodeTransferImm c w)
  · exact .ite (.ok rfl) (.ok (thumbSet_decodeTransferReg c w))
  · exact .ok (thumbSet_decodeBlock c w)
  · exact .ite (.ok rfl) (.ok rfl)
  · exact .ok (thumbSet_decodeCoprocTransfer c w)
  · exact .ok (thumbSet_decodeCoprocOrSwi c w)

theorem armOnly_decodeArm (w : Word) : ArmOnly (decodeArm w) := by
  unfold decodeArm
  split
  · exact armOnly_decodeTree _ w
  · exact .error _

/-- An instruction of the Thumb set is fetched in Thumb state alone (30 R90). -/
theorem thumb_of_fetched {s : State} {i : Instr} (h : decode s.fetched = .ok i) (hi : thumbSet i = true) :
    s.cpsr.t = true := by
  by_contra ht
  have harm : s.fetched = .arm (State.readWord { s with mem := s.fetchMemory } s.cur) := if_neg ht
  rw [harm] at h
  exact Bool.false_ne_true (((armOnly_decodeArm _).of_ok i h).symm.trans hi)

end Sys2Proof.Machine
end

section
/-! SUPPORT. What a step can lead to, said once for every instruction: it does its work on registers and memory, then
waits, goes on in sequence, writes the pc, or enters an exception. -/

namespace Sys2Proof.Machine

/-! ## The work of an instruction -/

/-- `u` is `s` with work done on its registers and its memory: the pc and the CPSR are as they were, memory is in
canonical form still, and in User mode no other bank and no SPSR is touched (10_state.md R24, R47). -/
structure Worked (s u : State) : Prop where
  cur : u.cur = s.cur
  cpsr : u.cpsr = s.cpsr
  mem : s.mem.wf = true → u.mem.wf = true
  banks : s.mode = .usr → ∀ k : Fin 30, 15 ≤ k.val → u.regs[k] = s.regs[k]
  spsrs : s.mode = .usr → spsrsKept s u

theorem Worked.mode {s u : State} (h : Worked s u) : u.mode = s.mode := State.mode_congr h.cpsr

/-- No register and no byte touched. -/
theorem Worked.of_eq {s u : State} (cur : u.cur = s.cur) (cpsr : u.cpsr = s.cpsr) (mem : u.mem = s.mem)
    (regs : u.regs = s.regs) (spsrs : spsrsKept s u) : Worked s u :=
  ⟨cur, cpsr, fun h => by rwa [mem], fun _ k _ => by rw [regs], fun _ => spsrs⟩

theorem Worked.refl (s : State) : Worked s s := .of_eq rfl rfl rfl rfl ⟨rfl, rfl, rfl, rfl, rfl⟩

theorem spsrsKept_trans {s t u : State} (h : spsrsKept s t) (h' : spsrsKept t u) : spsrsKept s u := by
  obtain ⟨fiq, irq, svc, abt, und⟩ := h
  obtain ⟨fiq', irq', svc', abt', und'⟩ := h'
  exact ⟨fiq'.trans fiq, irq'.trans irq, svc'.trans svc, abt'.trans abt, und'.trans und⟩

theorem Worked.trans {s t u : State} (h : Worked s t) (h' : Worked t u) : Worked s u where
  cur := h'.cur.trans h.cur
  cpsr := h'.cpsr.trans h.cpsr
  mem hs := h'.mem (h.mem hs)
  banks hm k hk := (h'.banks (h.mode.trans hm) k hk).trans (h.banks hm k hk)
  spsrs hm := spsrsKept_trans (h.spsrs hm) (h'.spsrs (h.mode.trans hm))

/-- The registers of the User bank have the first fifteen places. -/
theorem regIndex_usr_lt {r : Reg} (hr : r ≠ 15) : (regIndex .usr r).val < 15 := by
  revert r; decide

theorem worked_writeReg (s : State) (r : Reg) (v : Word) : Worked s (s.writeReg r v) where
  cur := by simp
  cpsr := by simp
  mem hs := by simpa using hs
  spsrs _ := by simp [spsrsKept]
  banks hm k hk := by
    by_cases hr : r = 15
    · rw [hr, State.writeReg_pc]
    · refine State.regs_writeReg_of_ne s v fun e => ?_
      have := regIndex_usr_lt hr
      rw [e, hm] at hk
      omega

theorem worked_writeUserReg (s : State) (r : Reg) (v : Word) : Worked s (s.writeUserReg r v) where
  cur := by simp
  cpsr := by simp
  mem hs := by simpa using hs
  spsrs _ := by simp [spsrsKept]
  banks _ k hk := by
    unfold State.writeUserReg
    split
    · rfl
    · rename_i hr
      have := regIndex_usr_lt hr
      exact Vector.getElem_set_ne (regIndex .usr r).isLt k.isLt (by omega)

theorem worked_writtenBack (s : State) (rn : Reg) (wb : Option Word) : Worked s (s.writtenBack rn wb) := by
  cases wb with
  | none => exact .refl s
  | some v => exact worked_writeReg s rn v

theorem worked_stored (s : State) {k : StoreKind} {a : Word} (ha : oddRefusal k.size a = none) (v : Word) :
    Worked s (s.stored k a v) where
  cur := by simp
  cpsr := by simp
  mem hs := State.wf_stored hs ha v
  banks _ k _ := by simp
  spsrs _ := by simp [spsrsKept]

theorem worked_writeBlock {p : Privilege} {s u : State} {a : Word} {vs : List Word} {b : Bool}
    (h : writeBlock p s a vs = some (u, b)) : Worked s u := by
  obtain ⟨e, hmem⟩ := writeBlock_kept h
  have work : ∀ m l, (s.mem.wf = true → Memory.wf m = true) → Worked s { s with mem := m, currentStores := l } :=
    fun m l hm => ⟨rfl, rfl, hm, fun _ _ _ => rfl, fun _ => ⟨rfl, rfl, rfl, rfl, rfl⟩⟩
  rw [e]
  exact work _ _ hmem

theorem worked_withLoaded (s : State) (vs : List (Reg × Word)) : Worked s (s.withLoaded vs) := by
  induction vs generalizing s with
  | nil => exact .refl s
  | cons x rest ih => exact (worked_writeReg s x.1 x.2).trans (ih _)

theorem worked_withLoadedUser (s : State) (vs : List (Reg × Word)) : Worked s (s.withLoadedUser vs) := by
  induction vs generalizing s with
  | nil => exact .refl s
  | cons x rest ih => exact (worked_writeUserReg s x.1 x.2).trans (ih _)

/-- User mode has no SPSR to write. -/
theorem worked_setSpsrOf (s : State) (p : Psr) : Worked s (s.setSpsrOf s.mode p) where
  cur := by simp
  cpsr := by simp
  mem hs := by simpa using hs
  banks _ k _ := by simp
  spsrs hm := by rw [hm]; exact ⟨rfl, rfl, rfl, rfl, rfl⟩

theorem worked_drawn (s : State) : Worked s s.drawn := .of_eq rfl rfl rfl rfl ⟨rfl, rfl, rfl, rfl, rfl⟩

theorem worked_sending (s : State) (cp : BitVec 4) (ws : List Word) : Worked s (s.sending cp ws) :=
  .of_eq rfl rfl rfl rfl ⟨rfl, rfl, rfl, rfl, rfl⟩

theorem worked_replies (s : State) (rest : List CoprocReply) : Worked s { s with replies := rest } :=
  .of_eq rfl rfl rfl rfl ⟨rfl, rfl, rfl, rfl, rfl⟩

theorem worked_linesSampled (s : State) : Worked s s.linesSampled := .of_eq rfl rfl rfl rfl ⟨rfl, rfl, rfl, rfl, rfl⟩

theorem worked_started (s : State) : Worked s s.started := by
  unfold State.started
  split
  · exact worked_drawn s
  · exact .refl s

/-! ## The status an instruction leaves -/

/-- A status that an instruction begun in `s` may leave without an exception: its mode is legal if that of `s` is, and
in User mode it differs in the flags and T alone (10_state.md R45, R49). -/
structure MayLeave (s : State) (q : Psr) : Prop where
  legal : modeOfBits s.cpsr.m ≠ none → modeOfBits q.m ≠ none
  user : s.mode = .usr → q.m = s.cpsr.m ∧ q.i = s.cpsr.i ∧ q.f = s.cpsr.f ∧ q.reserved = s.cpsr.reserved

theorem MayLeave.of_control {s : State} {q : Psr} (m : q.m = s.cpsr.m) (i : q.i = s.cpsr.i) (f : q.f = s.cpsr.f)
    (reserved : q.reserved = s.cpsr.reserved) : MayLeave s q :=
  ⟨fun h => by rwa [m], fun _ => ⟨m, i, f, reserved⟩⟩

/-- Outside User mode any legal mode. -/
theorem MayLeave.of_privileged {s : State} {q : Psr} (hs : s.mode ≠ .usr)
    (legal : modeOfBits s.cpsr.m ≠ none → modeOfBits q.m ≠ none) : MayLeave s q :=
  ⟨legal, fun h => absurd h hs⟩

theorem MayLeave.congr {s u : State} {q : Psr} (h : u.cpsr = s.cpsr) (hq : MayLeave u q) : MayLeave s q := by
  have hm : u.mode = s.mode := State.mode_congr h
  exact ⟨h ▸ hq.legal, fun hs => h ▸ hq.user (hm.trans hs)⟩

/-! ## Where a step leads -/

/-- What a step from `s` can lead to. -/
inductive Leads (s : State) : State → Prop
  /-- A wait for a coprocessor: the instruction is not executed (46 R259). -/
  | waits {u : State} (work : Worked s u) (same : u.currentStores = s.currentStores) : Leads s u
  /-- On in sequence, in the same instruction set (10_state.md R32). -/
  | goesOn {u : State} {q : Psr} (work : Worked s u) (status : MayLeave s q) (same : q.t = s.cpsr.t) :
      Leads s (u.withCpsr q).advance
  /-- On at an address aligned for the instruction set left (10_state.md R33). -/
  | goesTo {u : State} {q : Psr} {a : Word} (work : Worked s u) (status : MayLeave s q)
      (aligned : s.aligned = true → alignedFor q.t a = true) : Leads s ((u.withCpsr q).branchTo a)
  /-- The entry of an exception (60 R360). -/
  | enters {u : State} (work : Worked s u) (e : Exception) (ret : Word) : Leads s (enterException e ret u)
  /-- A reset (70 R400). -/
  | resets {u : State} (work : Worked s u) : Leads s (takeReset u)
  /-- The mark of a User-bank transfer changes nothing of this (45 R244). -/
  | marked {t : State} (h : Leads s t) (b : Bool) : Leads s { t with afterUserBank := b }

theorem Leads.advance {s u : State} (h : Worked s u) : Leads s u.advance :=
  .goesOn (q := u.cpsr) h (.of_control (by rw [h.cpsr]) (by rw [h.cpsr]) (by rw [h.cpsr]) (by rw [h.cpsr]))
    (by rw [h.cpsr])

theorem Leads.branch {s u : State} {a : Word} (h : Worked s u)
    (ha : s.aligned = true → alignedFor s.cpsr.t a = true) : Leads s (u.branchTo a) :=
  .goesTo (q := u.cpsr) h (.of_control (by rw [h.cpsr]) (by rw [h.cpsr]) (by rw [h.cpsr]) (by rw [h.cpsr]))
    (by rwa [h.cpsr])

/-- What is led to after work done before leads from the state before the work. -/
theorem Leads.after {s u t : State} (h : Worked s u) (hs : u.currentStores = s.currentStores) (ht : Leads u t) :
    Leads s t := by
  induction ht with
  | waits work same => exact .waits (h.trans work) (same.trans hs)
  | goesOn work status same => exact .goesOn (h.trans work) (status.congr h.cpsr) (by rw [same, h.cpsr])
  | goesTo work status aligned =>
    have hu : u.aligned = s.aligned := by simp only [State.aligned_eq, h.cpsr, h.cur]
    exact .goesTo (h.trans work) (status.congr h.cpsr) (hu ▸ aligned)
  | enters work e ret => exact .enters (h.trans work) e ret
  | resets work => exact .resets (h.trans work)
  | marked _ b ih => exact .marked ih b

/-- If `r` is a next state, a step from `s` can lead to it. -/
structure Ends (s : State) (r : Result) : Prop where
  of_next : ∀ t, r = .next t → Leads s t

theorem Ends.next {s t : State} (h : Leads s t) : Ends s (.next t) := ⟨by rintro _ ⟨⟩; exact h⟩

theorem Ends.fault (s : State) (x : Fault) : Ends s (.fault x) := ⟨by rintro _ ⟨⟩⟩

theorem Ends.refused (s : State) (x : Refusal) : Ends s (.refused x) := ⟨by rintro _ ⟨⟩⟩

theorem Ends.after {s u : State} {r : Result} (h : Worked s u) (hs : u.currentStores = s.currentStores)
    (hr : Ends u r) : Ends s r := ⟨fun t ht => .after h hs (hr.of_next t ht)⟩

/-! ## Shared operations -/

theorem ends_guarded {r : Option Refusal} {s : State} {body : Result} (h : Ends s body) : Ends s (guarded r body) :=
  ⟨fun t ht => h.of_next t (guarded_next ht).2⟩

/-- An instruction whose condition fails only advances, so its body decides. -/
theorem ends_conditional {c : Cond} {s : State} {body : Result} (h : Ends s body) : Ends s (conditional c s body) := by
  refine ⟨fun t ht => ?_⟩
  rcases conditional_next ht with ⟨-, hb⟩ | ⟨-, rfl⟩
  · exact h.of_next t hb
  · exact .advance (.refl s)

theorem leads_takeUndefined {s u : State} (h : Worked s u) : Leads s (takeUndefined u) := .enters h .undefined _
theorem leads_takeSwi {s u : State} (h : Worked s u) : Leads s (takeSwi u) := .enters h .swi _
theorem leads_takeDataAbort {s u : State} (h : Worked s u) : Leads s (takeDataAbort u) := .enters h .dataAbort _
theorem leads_interrupted (e : Exception) (s : State) : Leads s (interrupted e s) :=
  .marked (.enters (.refl s) e _) _

theorem ends_raised {e : Exception} {take : State → State} {s u : State} (h : Leads s (take u)) :
    Ends s (raised e take u) := ends_guarded (.next h)

theorem ends_jumpExact {s u : State} (h : Worked s u) (a : Word) : Ends s (jumpExact a u) := by
  refine ⟨fun t ht => ?_⟩
  obtain ⟨ha, rfl⟩ := jumpExact_next ht
  exact .branch h fun _ => alignedFor_of_extract _ ha

/-- The exchange leaves the flags, I, F, the mode and the reserved bits, and an address aligned for the T it
writes. -/
theorem ends_exchangeTo (a : Word) (s : State) : Ends s (exchangeTo a s) := by
  refine ⟨fun t ht => ?_⟩
  have status : ∀ b, MayLeave s { s.cpsr with t := b } := fun b => .of_control rfl rfl rfl rfl
  rcases exchangeTo_next ht with ⟨-, rfl⟩ | ⟨h0, h1, rfl⟩
  · exact .goesTo (.refl s) (status true) fun _ => alignedFor_halfAligned a
  · have ha : a.extractLsb' 0 2 = 0#2 := by
      ext i hi
      interval_cases i <;> simp [← BitVec.getLsbD_eq_getElem, h0, h1]
    exact .goesTo (.refl s) (status false) fun _ => alignedFor_of_extract _ ha

/-- A mode with an SPSR is not User mode; the mode restored is legal. -/
theorem ends_exceptionReturn {s u : State} (h : Worked s u) (a : Word) : Ends s (exceptionReturn a u) := by
  refine ⟨fun t ht => ?_⟩
  obtain ⟨p, hp, hm, hr⟩ := exceptionReturn_next ht
  have hu : s.mode ≠ .usr := fun hs => by
    rw [h.mode, hs] at hp
    cases hp
  have status : MayLeave s p := .of_privileged hu fun _ => hm
  rcases hr with ⟨hpt, rfl⟩ | ⟨-, ha, rfl⟩
  · exact .goesTo h status fun _ => hpt ▸ alignedFor_halfAligned a
  · exact .goesTo h status fun _ => alignedFor_of_extract _ ha

/-- A register write and a write of the CPSR that keeps the mode can change places. -/
theorem State.writeReg_withCpsr (s : State) {q : Psr} (hm : q.m = s.cpsr.m) (r : Reg) (v : Word) :
    (s.withCpsr q).writeReg r v = (s.writeReg r v).withCpsr q := by
  have hmode : (s.withCpsr q).mode = s.mode := by simp [State.mode, hm]
  unfold State.writeReg
  split
  · rfl
  · simp only [hmode]
    rfl

theorem ends_dataProcess (op : AluOp) (f : Bool) (rn rd : Reg) (o : Shifted) (s : State) :
    Ends s (dataProcess op f rn rd o s) := by
  refine ⟨fun t ht => ?_⟩
  have flags : ∀ r, MayLeave s (s.cpsr.withResult r) := fun r => .of_control rfl rfl rfl rfl
  rcases dataProcess_next ht with ⟨-, rfl⟩ | ⟨-, -, -, hr⟩ | ⟨-, -, -, hj⟩ | ⟨-, -, rfl⟩
  · exact .goesOn (.refl s) (flags _) rfl
  · exact (ends_exceptionReturn (.refl s) _).of_next t hr
  · exact (ends_jumpExact (.refl s) _).of_next t hj
  · cases f with
    | false => exact .advance (worked_writeReg ..)
    | true =>
      rw [if_pos rfl, State.writeReg_withCpsr s (q := s.cpsr.withResult _) rfl]
      exact .goesOn (worked_writeReg ..) (flags _) rfl

theorem ends_load (k : LoadKind) (p : Privilege) (rn rd : Reg) (a : Address) (s : State) :
    Ends s (load k p rn rd a s) := by
  refine ⟨fun t ht => ?_⟩
  have based := worked_writtenBack s rn a.writeBack
  obtain ⟨-, ⟨-, rfl⟩ | ⟨-, -, rfl⟩ | ⟨-, -, rfl⟩⟩ := load_next ht
  · exact leads_takeDataAbort based
  · exact .branch based fun _ => alignedFor_wordAligned ..
  · exact .advance (based.trans (worked_writeReg ..))

theorem ends_store (k : StoreKind) (p : Privilege) (rn : Reg) (v : Word) (a : Address) (s : State) :
    Ends s (store k p rn v a s) := by
  refine ⟨fun t ht => ?_⟩
  obtain ⟨ho, ⟨-, rfl⟩ | ⟨-, rfl⟩⟩ := store_next ht
  · exact leads_takeDataAbort (worked_writtenBack ..)
  · exact .advance ((worked_stored s ho v).trans (worked_writtenBack ..))

/-- A block load: what its words are placed by is work, and its ending decides. -/
theorem ends_loadBlock {rn : Reg} {base a : Word} {rs : List Reg} {wb : Option Word}
    {place : State → List (Reg × Word) → State} {finish : Option Word → State → Result} {s : State}
    (hplace : ∀ u vs, Worked u (place u vs)) (hfinish : ∀ pc u, Worked s u → Ends s (finish pc u)) :
    Ends s (loadBlock rn base a rs wb place finish s) := by
  refine ⟨fun t ht => ?_⟩
  rcases loadBlock_next ht with ⟨-, rfl⟩ | ⟨-, hf⟩
  · exact leads_takeDataAbort ((hplace s _).trans (worked_writeReg ..))
  · exact (hfinish _ _ ((worked_writtenBack ..).trans (hplace _ _))).of_next t hf

theorem ends_storeBlock {rn : Reg} {a : Word} {vs : List Word} {wb : Option Word} {s u : State} (h : Worked s u) :
    Ends s (storeBlock rn a vs wb u) := by
  refine ⟨fun t ht => ?_⟩
  obtain ⟨v, b, hv, rfl⟩ := storeBlock_next ht
  have work : Worked s (v.writtenBack rn wb) := (h.trans (worked_writeBlock hv)).trans (worked_writtenBack ..)
  cases b with
  | false => exact .advance work
  | true => exact leads_takeDataAbort work

/-- A coprocessor instruction: absent, a wait, or what it does when accepted. -/
theorem ends_offered {c : Cond} {cp : BitVec 4} {r : Option Refusal} {accept : Word → List Word → State → Result}
    {s : State} (h : ∀ w ws u, Worked s u → Ends s (accept w ws u)) : Ends s (offered c cp r accept s) := by
  refine ⟨fun t ht => ?_⟩
  rcases offered_next ht with ⟨-, rfl⟩ | ⟨-, -, ⟨-, rfl⟩ | ⟨-, -, ⟨-, rfl⟩ | ⟨_, -, rfl⟩ | ⟨w, ws, _, -, ha⟩⟩⟩
  · exact .advance (.refl s)
  · exact leads_takeUndefined (.refl s)
  · exact .waits (.refl t) rfl
  · exact .waits (worked_replies ..) rfl
  · exact (h w ws _ (worked_replies ..)).of_next t ha

/-! ## The forms of the ARM instructions -/

theorem ends_dataImmediate (op : AluOp) (c : Cond) (f : Bool) (rn rd : Reg) (rot : BitVec 4) (imm : BitVec 8)
    (s : State) : Ends s (dataImmediate op c f rn rd rot imm s) := ends_conditional (ends_dataProcess ..)

theorem ends_dataShiftImmediate (op : AluOp) (c : Cond) (f : Bool) (rn rd : Reg) (n : BitVec 5) (sh : Shift)
    (rm : Reg) (s : State) : Ends s (dataShiftImmediate op c f rn rd n sh rm s) :=
  ends_conditional (ends_dataProcess ..)

theorem ends_dataShiftRegister (op : AluOp) (c : Cond) (f : Bool) (rn rd rs : Reg) (sh : Shift) (rm : Reg)
    (s : State) : Ends s (dataShiftRegister op c f rn rd rs sh rm s) :=
  ends_conditional (ends_guarded (ends_dataProcess ..))

theorem leads_writeProduct (f : Bool) (rd : Reg) (v : Word) (s : State) : Leads s (writeProduct f rd v s) := by
  have work := worked_writeReg s rd v
  cases f with
  | false => exact .advance work
  | true => exact .goesOn (work.trans (worked_drawn _)) (.of_control rfl rfl rfl rfl) rfl

theorem leads_writeLongProduct (f : Bool) (hi lo : Reg) (v : BitVec 64) (s : State) :
    Leads s (writeLongProduct f hi lo v s) := by
  have work := (worked_writeReg s lo (v.extractLsb' 0 32)).trans (worked_writeReg _ hi (v.extractLsb' 32 32))
  cases f with
  | false => exact .advance work
  | true => exact .goesOn (work.trans (worked_drawn _)) (.of_control rfl rfl rfl rfl) rfl

theorem leads_moveFromStatus (p : Psr) (rd : Reg) (s : State) : Leads s (moveFromStatus p rd s) :=
  .advance ((worked_writeReg ..).trans (worked_drawn _))

theorem ends_execMrs (c : Cond) (r : Bool) (rd : Reg) (s : State) : Ends s (execMrs c r rd s) := by
  refine ends_conditional (ends_guarded ?_)
  split
  · split
    · exact .next (leads_moveFromStatus ..)
    · exact .refused ..
  · exact .next (leads_moveFromStatus ..)

theorem ends_moveToSpsr (mask : BitVec 4) (w : Word) (s : State) : Ends s (moveToSpsr mask w s) := by
  unfold moveToSpsr
  split
  · exact .next (.advance (worked_setSpsrOf ..))
  · exact .refused ..

theorem Psr.masked_t (p : Psr) (mask : BitVec 4) (w : Word) :
    (p.masked mask w).t = if mask.getLsbD 0 then w.getLsbD 5 else p.t := by
  unfold Psr.masked
  split <;> split <;> rfl

theorem Psr.masked_m (p : Psr) (mask : BitVec 4) (w : Word) :
    (p.masked mask w).m = if mask.getLsbD 0 then w.extractLsb' 0 5 else p.m := by
  unfold Psr.masked
  split <;> split <;> rfl

/-- In User mode the flags alone are written; in a privileged mode T is kept and the mode written is legal. -/
theorem ends_moveToCpsr (mask : BitVec 4) (w : Word) (s : State) : Ends s (moveToCpsr mask w s) := by
  by_cases hu : s.mode = .usr
  · rw [moveToCpsr_usr hu]
    refine .next (.goesOn (.refl s) (.of_control ?_ ?_ ?_ ?_) ?_) <;> split <;> rfl
  · unfold moveToCpsr
    rw [if_neg hu]
    split
    · exact .refused ..
    · rename_i ht
      split
      · exact .fault ..
      · rename_i hm
        refine .next (.goesOn (.refl s) (.of_privileged hu fun legal => ?_) ?_)
        · rw [Psr.masked_m]
          split
          · rename_i hf
            simpa [hf] using hm
          · exact legal
        · rw [Psr.masked_t]
          split
          · rename_i hf
            simpa [hf] using ht
          · rfl

theorem ends_moveToStatus (r : Bool) (mask : BitVec 4) (w : Word) (s : State) :
    Ends s (if r then moveToSpsr mask w s else moveToCpsr mask w s) := by
  cases r
  · exact ends_moveToCpsr mask w s
  · exact ends_moveToSpsr mask w s

theorem alignedFor_branchTarget {s : State} (h : s.aligned = true) (off : BitVec 24) :
    alignedFor s.cpsr.t (s.branchTarget off) = true :=
  alignedFor_add (alignedFor_add h (alignedFor_of_mod_four _ rfl)) (alignedFor_shiftLeft_two ..)

theorem ends_swap (l : LoadKind) {k : StoreKind} (hk : ∀ a, oddRefusal k.size a = none) (rn rd rm : Reg)
    (s : State) : Ends s (swap l k rn rd rm s) := by
  have abort : Ends s (raised .dataAbort takeDataAbort s) := ends_raised (leads_takeDataAbort (.refl s))
  unfold swap
  simp only
  split
  · exact .fault ..
  · exact abort
  · split
    · exact .fault ..
    · exact abort
    · exact .next (.advance ((worked_stored s (hk _) _).trans (worked_writeReg ..)))

theorem ends_singleLoad (k : LoadKind) (noPc : Bool) (priv : Privilege) (c : Cond) (p u w : Bool) (rn rd : Reg)
    (off : Word) (rm : Option Reg) (s : State) : Ends s (singleLoad k noPc priv c p u w rn rd off rm s) :=
  ends_conditional (ends_guarded (ends_load ..))

theorem ends_singleStore (k : StoreKind) (noPc : Bool) (priv : Privilege) (c : Cond) (p u w : Bool) (rn rd : Reg)
    (off : Word) (rm : Option Reg) (s : State) : Ends s (singleStore k noPc priv c p u w rn rd off rm s) :=
  ends_conditional (ends_guarded (ends_store ..))

theorem ends_halfFormatLoad (k : LoadKind) (c : Cond) (p u w : Bool) (rn rd : Reg) (off : Word) (rm : Option Reg)
    (s : State) : Ends s (halfFormatLoad k c p u w rn rd off rm s) :=
  ends_conditional (ends_guarded (ends_guarded (ends_load ..)))

theorem ends_halfFormatStore (c : Cond) (p u w : Bool) (rn rd : Reg) (off : Word) (rm : Option Reg) (s : State) :
    Ends s (halfFormatStore c p u w rn rd off rm s) :=
  ends_conditional (ends_guarded (ends_guarded (ends_store ..)))

theorem ends_finishLoad {s : State} (pc : Option Word) (u : State) (h : Worked s u) : Ends s (finishLoad pc u) := by
  cases pc with
  | none => exact .next (.advance h)
  | some v => exact .next (.branch h fun _ => alignedFor_wordAligned ..)

theorem ends_finishReturn {s : State} (pc : Option Word) (u : State) (h : Worked s u) :
    Ends s (finishReturn pc u) := by
  cases pc with
  | none => exact .next (.advance h)
  | some v => exact ends_exceptionReturn h v

theorem ends_leavesUserBank {s : State} {r : Result} (h : Ends s r) : Ends s (leavesUserBank r) := by
  cases r with
  | next u => exact .next (.marked (h.of_next u rfl) true)
  | fault x => exact .fault s x
  | refused x => exact .refused s x

theorem ends_execMcr (c : Cond) (op1 : BitVec 3) (crn rd cp : Reg) (op2 : BitVec 3) (crm : Reg) (s : State) :
    Ends s (execMcr c op1 crn rd cp op2 crm s) := by
  refine ends_offered fun _ _ u hu => ?_
  split
  · exact .next (.advance ((hu.trans (worked_drawn _)).trans (worked_sending ..)))
  · exact .next (.advance (hu.trans (worked_sending ..)))

theorem ends_execMrc (c : Cond) (op1 : BitVec 3) (crn rd cp : Reg) (op2 : BitVec 3) (crm : Reg) (s : State) :
    Ends s (execMrc c op1 crn rd cp op2 crm s) := by
  refine ends_offered fun d _ u hu => ?_
  have status : MayLeave s (u.cpsr.withFlagField d) := .congr hu.cpsr (.of_control rfl rfl rfl rfl)
  have same : u.cpsr.t = s.cpsr.t := by rw [hu.cpsr]
  split
  · exact .next (.goesOn hu status same)
  · exact .next (.advance (hu.trans (worked_writeReg ..)))

theorem ends_execLdc (c : Cond) (p u n w : Bool) (rn crd cp : Reg) (off : BitVec 8) (s : State) :
    Ends s (execLdc c p u n w rn crd cp off s) := by
  refine ends_offered fun _ _ v hv => ?_
  have work : ∀ ws wb, Worked s ((v.sending cp ws).writtenBack rn wb) := fun ws wb =>
    (hv.trans (worked_sending v cp ws)).trans (worked_writtenBack ..)
  simp only
  split
  · exact .fault ..
  · exact ends_raised (leads_takeDataAbort (work ..))
  · exact .next (.advance (work ..))

theorem ends_execStc (c : Cond) (p u n w : Bool) (rn crd cp : Reg) (off : BitVec 8) (s : State) :
    Ends s (execStc c p u n w rn crd cp off s) := ends_offered fun _ _ _ hu => ends_storeBlock hu

/-! ## The forms of the Thumb instructions -/

theorem ends_thumbData (op : AluOp) (rn rd : LowReg) (o : Shifted) (s : State) : Ends s (thumbData op rn rd o s) :=
  ends_dataProcess ..

theorem ends_thumbShiftImmediate (sh : Shift) (n : BitVec 5) (rs rd : LowReg) (s : State) :
    Ends s (thumbShiftImmediate sh n rs rd s) := ends_thumbData ..

theorem ends_thumbShiftRegister (sh : Shift) (rs rd : LowReg) (s : State) :
    Ends s (thumbShiftRegister sh rs rd s) := ends_thumbData ..

theorem ends_thumbLoad (k : LoadKind) (rd : LowReg) (a : Word) (s : State) : Ends s (thumbLoad k rd a s) :=
  ends_load ..

theorem ends_thumbStore (k : StoreKind) (rd : LowReg) (a : Word) (s : State) : Ends s (thumbStore k rd a s) :=
  ends_store ..

/-- In Thumb state an address with bit 0 as 0 is aligned. -/
theorem Leads.branch_halfAligned {s u : State} (ht : s.cpsr.t = true) (h : Worked s u) (a : Word) :
    Leads s (u.branchTo (halfAligned a)) := .branch h fun _ => ht ▸ alignedFor_halfAligned a

/-- In Thumb state a relative branch keeps the alignment. -/
theorem Leads.branch_relative {s : State} (ht : s.cpsr.t = true) (x : Word) :
    Leads s (s.branchTo (s.cur + 4 + (x <<< 1))) := by
  refine .branch (.refl s) fun hs => ?_
  rw [State.aligned_eq, ht] at hs
  rw [ht]
  exact alignedFor_add (alignedFor_add hs rfl) (alignedFor_shiftLeft_one x)

theorem leads_thumbWriteHigh {s : State} (ht : s.cpsr.t = true) (d : Reg) (v : Word) :
    Leads s (thumbWriteHigh d v s) := by
  unfold thumbWriteHigh
  split
  · exact .branch_halfAligned ht (.refl s) v
  · exact .advance (worked_writeReg ..)

theorem ends_finishPop {s : State} (ht : s.cpsr.t = true) (pc : Option Word) (u : State) (h : Worked s u) :
    Ends s (finishPop pc u) := by
  cases pc with
  | none => exact .next (.advance h)
  | some v => exact .next (.branch_halfAligned ht h v)

theorem ends_thumbBranchIf {s : State} (ht : s.cpsr.t = true) (c : Cond) (off : BitVec 8) :
    Ends s (thumbBranchIf c off s) := by
  unfold thumbBranchIf
  split
  · exact .next (.branch_relative ht _)
  · exact .next (.advance (.refl s))

/-! ## Every instruction, and the step -/

/-- What an instruction leads to: each is one of the forms above. -/
theorem ends_exec (i : Instr) (s : State) (ht : thumbSet i = true → s.cpsr.t = true) : Ends s (exec i s) := by
  unfold exec
  cases i with
  | andImm | eorImm | subImm | rsbImm | addImm | adcImm | sbcImm | rscImm | tstImm | teqImm | cmpImm | cmnImm
  | orrImm | movImm | bicImm | mvnImm => exact ends_dataImmediate ..
  | andShImm | eorShImm | subShImm | rsbShImm | addShImm | adcShImm | sbcShImm | rscShImm | tstShImm | teqShImm
  | cmpShImm | cmnShImm | orrShImm | movShImm | bicShImm | mvnShImm => exact ends_dataShiftImmediate ..
  | andShReg | eorShReg | subShReg | rsbShReg | addShReg | adcShReg | sbcShReg | rscShReg | tstShReg | teqShReg
  | cmpShReg | cmnShReg | orrShReg | movShReg | bicShReg | mvnShReg => exact ends_dataShiftRegister ..
  | mrs => exact ends_execMrs ..
  | msrReg => exact ends_conditional (ends_guarded (ends_moveToStatus ..))
  | msrImm => exact ends_conditional (ends_moveToStatus ..)
  | bx => exact ends_conditional (ends_exchangeTo ..)
  | b => exact ends_conditional (.next (.branch (.refl s) fun h => alignedFor_branchTarget h _))
  | bl => exact ends_conditional (.next (.branch (worked_writeReg ..) fun h => alignedFor_branchTarget h _))
  | mul | mla => exact ends_conditional (ends_guarded (ends_guarded (.next (leads_writeProduct ..))))
  | umull | umlal | smull | smlal => exact ends_conditional (ends_guarded (.next (leads_writeLongProduct ..)))
  | swp | swpb => exact ends_conditional (ends_guarded (ends_swap _ (fun _ => rfl) ..))
  | strhReg | strhImm => exact ends_halfFormatStore ..
  | ldrhReg | ldrhImm | ldrsbReg | ldrsbImm | ldrshReg | ldrshImm => exact ends_halfFormatLoad ..
  | strImm | strImmPost | strtImm | strReg | strRegPost | strtReg | strbImm | strbImmPost | strbtImm | strbReg
  | strbRegPost | strbtReg => exact ends_singleStore ..
  | ldrImm | ldrImmPost | ldrtImm | ldrReg | ldrRegPost | ldrtReg | ldrbImm | ldrbImmPost | ldrbtImm | ldrbReg
  | ldrbRegPost | ldrbtReg => exact ends_singleLoad ..
  | undefined => exact ends_conditional (ends_raised (leads_takeUndefined (.refl s)))
  | swi => exact ends_conditional (ends_raised (leads_takeSwi (.refl s)))
  | ldm1 =>
    exact ends_conditional (ends_guarded (ends_guarded (ends_loadBlock worked_withLoaded ends_finishLoad)))
  | ldm2 =>
    exact ends_conditional (ends_guarded (ends_guarded (ends_leavesUserBank
      (ends_loadBlock worked_withLoadedUser ends_finishLoad))))
  | ldm3 =>
    exact ends_conditional (ends_guarded (ends_guarded (ends_guarded
      (ends_loadBlock worked_withLoaded ends_finishReturn))))
  | stm1 => exact ends_conditional (ends_guarded (ends_guarded (ends_storeBlock (.refl s))))
  | stm2 =>
    exact ends_conditional (ends_guarded (ends_guarded (ends_leavesUserBank (ends_storeBlock (.refl s)))))
  | cdp => exact ends_offered fun _ _ _ hu => .next (.advance hu)
  | mcr => exact ends_execMcr ..
  | mrc => exact ends_execMrc ..
  | ldc => exact ends_execLdc ..
  | stc => exact ends_execStc ..
  | tAddReg | tSubReg | tAddImm3 | tSubImm3 | tMovImm8 | tCmpImm8 | tAddImm8 | tSubImm8 | tAnd | tEor | tAdc | tSbc
  | tTst | tNeg | tCmp | tCmn | tOrr | tBic | tMvn => exact ends_thumbData ..
  | tLslImm | tLsrImm | tAsrImm => exact ends_thumbShiftImmediate ..
  | tLslReg | tLsrReg | tAsrReg | tRorReg => exact ends_thumbShiftRegister ..
  | tMul => exact ends_guarded (.next (leads_writeProduct ..))
  | tAddHi | tMovHi => exact ends_guarded (.next (leads_thumbWriteHigh (ht rfl) ..))
  | tCmpHi => exact ends_guarded (ends_guarded (ends_dataProcess ..))
  | tBx => exact ends_exchangeTo ..
  | tLdrPc | tLdrReg | tLdrbReg | tLdsbReg | tLdrhReg | tLdshReg | tLdrImm | tLdrbImm | tLdrhImm | tLdrSp =>
    exact ends_thumbLoad ..
  | tStrReg | tStrbReg | tStrhReg | tStrImm | tStrbImm | tStrhImm | tStrSp => exact ends_thumbStore ..
  | tAddPc | tAddSp | tSpUp | tSpDown | tBlPrefix => exact .next (.advance (worked_writeReg ..))
  | tB => exact .next (.branch_relative (ht rfl) _)
  | tBlSuffix => exact .next (.branch_halfAligned (ht rfl) (worked_writeReg ..) _)
  | tPush => exact ends_guarded (ends_storeBlock (.refl s))
  | tStmia => exact ends_guarded (ends_guarded (ends_storeBlock (.refl s)))
  | tPop | tLdmia => exact ends_guarded (ends_loadBlock worked_withLoaded (ends_finishPop (ht rfl)))
  | tBeq | tBne | tBcs | tBcc | tBmi | tBpl | tBvs | tBvc | tBhi | tBls | tBge | tBlt | tBgt | tBle =>
    exact ends_thumbBranchIf (ht rfl) ..
  | tUndefined | tUndefinedSpace => exact ends_raised (leads_takeUndefined (.refl s))
  | tSwi => exact ends_raised (leads_takeSwi (.refl s))

theorem ends_runInstruction (s : State) : Ends s (runInstruction s) := by
  unfold runInstruction
  split
  · exact .refused ..
  · rename_i i hi
    split
    · exact .refused ..
    · have ht : thumbSet i = true → s.started.cpsr.t = true := fun h => by simpa using thumb_of_fetched hi h
      exact .after (worked_started s) (by simp) (ends_exec i s.started ht)

theorem ends_fetchAndRun (s : State) : Ends s (fetchAndRun s) := by
  unfold fetchAndRun
  split
  · exact .next (leads_interrupted ..)
  · exact .fault ..
  · exact ends_runInstruction s

/-- What a step leads to, whatever the lines, the platform and the instruction. -/
theorem ends_step (s : State) : Ends s (step s) := by
  refine .after (worked_linesSampled s) rfl ?_
  unfold step cycle
  simp only
  split
  · exact .next (.resets (.refl _))
  · split
    · exact .fault ..
    · split
      · exact .refused ..
      · split
        · exact .next (leads_interrupted .fiq _)
        · split
          · exact .next (leads_interrupted .irq _)
          · exact ends_fetchAndRun _

end Sys2Proof.Machine
end

section
/-! SUPPORT. The invariant of every step, and what a step from User mode leaves alone (10_state.md R24, R30, R33, R44,
R45, R49), read off what a step can lead to. -/

namespace Sys2Proof.Machine

/-! ## The invariant -/

theorem State.inv_iff (s : State) :
    s.inv = true ↔ modeOfBits s.cpsr.m ≠ none ∧ s.aligned = true ∧ s.mem.wf = true ∧ s.currentStores = [] := by
  simp [State.inv, Option.isSome_iff_ne_none, and_assoc]

theorem Exception.vector_aligned (e : Exception) : alignedFor false e.vector = true := by
  cases e <;> decide

/-- The mode an exception enters is legal, and its vector is aligned for ARM state. -/
theorem enterException_legal (e : Exception) (ret : Word) (s : State) :
    modeOfBits (enterException e ret s).cpsr.m ≠ none ∧ (enterException e ret s).aligned = true :=
  ⟨by simp [Exception.status], e.vector_aligned⟩

theorem Leads.inv {s t : State} (h : Leads s t) (hs : s.inv = true) : t.inv = true := by
  obtain ⟨legal, aligned, wf, stores⟩ := s.inv_iff.1 hs
  rw [State.inv_iff]
  induction h with
  | waits work same =>
    refine ⟨by rwa [work.cpsr], ?_, work.mem wf, same.trans stores⟩
    rwa [State.aligned_eq, work.cpsr, work.cur]
  | @goesOn u q work status same =>
    have hsize : (u.withCpsr q).size = s.size := by rw [State.size, State.size, State.withCpsr_cpsr, same]
    refine ⟨status.legal legal, ?_, work.mem wf, rfl⟩
    rw [State.aligned_eq, State.advance_cpsr, State.withCpsr_cpsr, State.advance_cur, State.withCpsr_cur, hsize, same,
      work.cur]
    exact alignedFor_add aligned (alignedFor_size s)
  | goesTo work status ha => exact ⟨status.legal legal, ha aligned, work.mem wf, rfl⟩
  | @enters u work e ret =>
    obtain ⟨hm, ha⟩ := enterException_legal e ret u
    exact ⟨hm, ha, by simpa using work.mem wf, rfl⟩
  | @resets u work =>
    obtain ⟨hm, ha⟩ := enterException_legal .reset (Config.resetLink u.draws) u
    exact ⟨hm, ha, work.mem wf, rfl⟩
  | marked _ b ih => exact ih

/-- Settles O11: whatever a step leads to has the invariant. -/
theorem invariantKeptByStep : Obligations.InvariantKeptByStep := by
  unfold Obligations.InvariantKeptByStep
  exact fun s t hs ht => ((ends_step s).of_next t ht).inv hs

/-! ## User mode -/

/-- In User mode still, with I, F, the reserved bits, the registers of the other banks and the SPSRs as they were. -/
def staysInUser (s t : State) : Prop :=
  t.cpsr.m = 0b10000 ∧ t.cpsr.i = s.cpsr.i ∧ t.cpsr.f = s.cpsr.f ∧ t.cpsr.reserved = s.cpsr.reserved ∧
    (∀ k : Fin 30, 15 ≤ k.val → t.regs[k] = s.regs[k]) ∧ spsrsKept s t

/-- The exception `e` has been entered from User mode: of the other banks r14 of its mode alone is written, and of the
SPSRs that of its mode, with the old CPSR but for a reset. -/
def entersFromUser (e : Exception) (s t : State) : Prop :=
  t.cpsr.m = e.mode.bits ∧ t.cur = e.vector ∧ t.cpsr.t = false ∧ t.cpsr.i = true ∧
    (∀ k : Fin 30, 15 ≤ k.val → k ≠ regIndex e.mode 14 → t.regs[k] = s.regs[k]) ∧
    (e ≠ .reset → t.spsrOf e.mode = some s.cpsr) ∧ ∀ m, m ≠ e.mode → t.spsrOf m = s.spsrOf m

/-- Equal SPSRs, each read by its mode. -/
theorem spsrOf_of_spsrsKept {s t : State} (h : spsrsKept s t) (m : Mode) : t.spsrOf m = s.spsrOf m := by
  obtain ⟨fiq, irq, svc, abt, und⟩ := h
  cases m <;> simp [State.spsrOf, fiq, irq, svc, abt, und]

theorem State.spsrOf_setSpsrOf_of_ne (s : State) {m n : Mode} (h : m ≠ n) (p : Psr) :
    (s.setSpsrOf n p).spsrOf m = s.spsrOf m := by
  cases n <;> cases m <;> simp_all [State.spsrOf, State.setSpsrOf]

theorem regs_set_of_ne (s : State) {j k : Fin 30} (h : k ≠ j) (v : Word) : (s.regs.set j v)[k] = s.regs[k] :=
  Vector.getElem_set_ne j.isLt k.isLt fun e => h (Fin.ext e.symm)

theorem entersFromUser_enterException {s u : State} (work : Worked s u) (hu : s.mode = .usr) (e : Exception)
    (ret : Word) : entersFromUser e s (enterException e ret u) := by
  refine ⟨rfl, rfl, rfl, rfl, fun k hk hne => ?_, fun _ => ?_, fun m hm => ?_⟩
  · simp only [enterException_regs]
    exact (regs_set_of_ne u hne ret).trans (work.banks hu k hk)
  · rw [enterException_spsr, work.cpsr]
  · calc (enterException e ret u).spsrOf m
      _ = u.spsrOf m := State.spsrOf_setSpsrOf_of_ne { u with regs := _ } hm u.cpsr
      _ = s.spsrOf m := spsrOf_of_spsrsKept (work.spsrs hu) m

/-- A reset is an entry of its exception but for what SPSR_svc holds. -/
theorem entersFromUser_takeReset {s u : State} (work : Worked s u) (hu : s.mode = .usr) :
    entersFromUser .reset s (takeReset u) := by
  obtain ⟨hm, hc, ht, hi, hregs, -, hspsrs⟩ :=
    entersFromUser_enterException work hu .reset (Config.resetLink u.draws)
  refine ⟨hm, hc, ht, hi, hregs, fun h => absurd rfl h, fun m hm => ?_⟩
  calc (takeReset u).spsrOf m
    _ = (enterException .reset (Config.resetLink u.draws) u).spsrOf m :=
      State.spsrOf_setSpsrOf_of_ne { enterException .reset _ u with draws := _ } hm (psrOfWord _)
    _ = s.spsrOf m := hspsrs m hm

theorem Leads.confined {s t : State} (h : Leads s t) (hm : s.cpsr.m = 0b10000) :
    staysInUser s t ∨ ∃ e, entersFromUser e s t := by
  have hu : s.mode = .usr := by rw [State.mode, hm]; rfl
  have stays : ∀ u q, Worked s u → MayLeave s q → staysInUser s (u.withCpsr q) := fun u q work status => by
    obtain ⟨m, i, f, reserved⟩ := status.user hu
    exact ⟨m.trans hm, i, f, reserved, work.banks hu, work.spsrs hu⟩
  induction h with
  | @waits u work _ =>
    exact .inl (stays u u.cpsr work (by rw [work.cpsr]; exact .of_control rfl rfl rfl rfl))
  | @goesOn u q work status _ => exact .inl (stays u q work status)
  | @goesTo u q _ work status _ => exact .inl (stays u q work status)
  | enters work e ret => exact .inr ⟨e, entersFromUser_enterException work hu e ret⟩
  | resets work => exact .inr ⟨.reset, entersFromUser_takeReset work hu⟩
  | marked _ b ih => exact ih

/-- Settles O13: whatever a step from User mode leads to is confined to it or the entry of one exception. -/
theorem userModeConfined : Obligations.UserModeConfined := by
  unfold Obligations.UserModeConfined
  exact fun s t hm ht => ((ends_step s).of_next t ht).confined hm

end Sys2Proof.Machine
end

section
/-! SUPPORT. The bytes of a word and of a halfword in memory, in either byte order (20_memory.md R61 to R64). -/

namespace Sys2Proof.Machine

/-- The fields of four bytes put together are the bytes. -/
theorem fields_of_word (x y z w : Byte) :
    let v : Word := x ++ y ++ z ++ w
    v.extractLsb' 0 8 = w ∧ v.extractLsb' 8 8 = z ∧ v.extractLsb' 16 8 = y ∧ v.extractLsb' 24 8 = x := by
  refine ⟨BitVec.extractLsb'_append_eq_right, ?_, ?_, ?_⟩ <;> rw [BitVec.extractLsb'_append_eq_of_le (by omega)]
  · exact BitVec.extractLsb'_append_eq_right
  · rw [BitVec.extractLsb'_append_eq_of_le (by omega)]
    exact BitVec.extractLsb'_append_eq_right
  · rw [BitVec.extractLsb'_append_eq_of_le (by omega)]
    exact BitVec.extractLsb'_append_eq_left

/-- The fields of two bytes put together are the bytes. -/
theorem fields_of_half (x y : Byte) :
    let v : Half := x ++ y
    v.extractLsb' 0 8 = y ∧ v.extractLsb' 8 8 = x :=
  ⟨BitVec.extractLsb'_append_eq_right, BitVec.extractLsb'_append_eq_left⟩

/-- A byte of memory is the field of the word around it that the byte order says. -/
theorem State.readByte_eq_field_readWord (s : State) (a : Word) {k : Nat} (hk : k < 4) :
    s.readByte (a.toNat + k) = (s.readWord a).extractLsb' (if s.plat.bigEnd then 24 - 8 * k else 8 * k) 8 := by
  obtain ⟨big0, big1, big2, big3⟩ := fields_of_word (s.readByte (a.toNat + 0)) (s.readByte (a.toNat + 1))
    (s.readByte (a.toNat + 2)) (s.readByte (a.toNat + 3))
  obtain ⟨little0, little1, little2, little3⟩ := fields_of_word (s.readByte (a.toNat + 3)) (s.readByte (a.toNat + 2))
    (s.readByte (a.toNat + 1)) (s.readByte (a.toNat + 0))
  unfold State.readWord
  cases s.plat.bigEnd with
  | false => interval_cases k; exacts [little0.symm, little1.symm, little2.symm, little3.symm]
  | true => interval_cases k; exacts [big3.symm, big2.symm, big1.symm, big0.symm]

/-- A byte of memory is the field of the halfword around it that the byte order says. -/
theorem State.readByte_eq_field_readHalf (s : State) (a : Word) {k : Nat} (hk : k < 2) :
    s.readByte (a.toNat + k) = (s.readHalf a).extractLsb' (if s.plat.bigEnd then 8 - 8 * k else 8 * k) 8 := by
  obtain ⟨big0, big1⟩ := fields_of_half (s.readByte (a.toNat + 0)) (s.readByte (a.toNat + 1))
  obtain ⟨little0, little1⟩ := fields_of_half (s.readByte (a.toNat + 1)) (s.readByte (a.toNat + 0))
  unfold State.readHalf
  cases s.plat.bigEnd with
  | false => interval_cases k; exacts [little0.symm, little1.symm]
  | true => interval_cases k; exacts [big1.symm, big0.symm]

/-- Settles O37: what is stored reads back, so each byte of memory is the field of the value that the byte order
gives it. -/
theorem storedBytes : Obligations.StoredBytes := by
  unfold Obligations.StoredBytes
  refine fun s a v h hs => ⟨fun ha => ?_, fun _ => ?_⟩
  · have hlt : a.toNat + 3 < 2 ^ 32 := by have := a.isLt; omega
    have back : (s.writeWord a v).readWord a = v := State.readWord_writeWord_same hs hlt v
    refine ⟨back, fun b => State.readByte_writeWord_of_ne s a v, fun k hk => ?_⟩
    rw [State.readByte_eq_field_readWord _ a hk, back, State.writeWord_plat]
  · have back : (s.writeHalf a h).readHalf a = h := State.readHalf_writeHalf_same hs a h
    refine ⟨back, fun b => State.readByte_writeHalf_of_ne s a h, fun k hk => ?_⟩
    rw [State.readByte_eq_field_readHalf _ a hk, back, State.writeHalf_plat]

end Sys2Proof.Machine
end

section
/-! SUPPORT. The step at which nothing comes before the instruction, and the memory that the instruction is fetched from
(60_exceptions.md R372, 20_memory.md R81). -/

namespace Sys2Proof.Machine

/-! ## The step at which nothing comes before the instruction (60 R372) -/

theorem fetchAndRun_granted {s : State} (h : s.access .fetch s.privilege s.cur s.size = .granted) :
    fetchAndRun s = runInstruction s := by
  rw [fetchAndRun, h]

/-- Undisturbed, a step runs the instruction at `cur`, its sample of the lines used up. -/
theorem step_undisturbed {s : State} (h : undisturbed s) : step s = runInstruction (startOf s) := by
  obtain ⟨reset, fiq, irq, legal, top, granted⟩ := h
  have noFiq : (s.linesNow.fiq && !s.cpsr.f) = false := by simpa using fiq
  have noIrq : (s.linesNow.irq && !s.cpsr.i) = false := by simpa using irq
  calc step s
    _ = fetchAndRun (startOf s) := by
      simp only [step, cycle, reset, legal, top, noFiq, noIrq, Bool.false_eq_true, if_false]
      rfl
    _ = runInstruction (startOf s) := fetchAndRun_granted granted

/-- The lines play no part in what an instruction touches. -/
theorem touchesBanked_startOf (i : Instr) (s : State) : touchesBanked i (startOf s) = touchesBanked i s := rfl

/-- The lines play no part in the fetch. -/
theorem fetched_startOf (s : State) : (startOf s).fetched = codeIn s.fetchMemory s := rfl

/-! ## The three answers of an instruction fetched -/

theorem runInstruction_error {s : State} {e : DecodeError} (h : decode s.fetched = .error e) :
    runInstruction s = .refused (.undecodable e) := by
  rw [runInstruction, h]

theorem runInstruction_hazard {s : State} {i : Instr} (h : decode s.fetched = .ok i)
    (hz : (s.afterUserBank && touchesBanked i s) = true) : runInstruction s = .refused .bankedAfterUserBank := by
  rw [runInstruction, h]
  exact if_pos hz

theorem runInstruction_exec {s : State} {i : Instr} (h : decode s.fetched = .ok i)
    (hz : (s.afterUserBank && touchesBanked i s) = false) : runInstruction s = exec i s.started := by
  rw [runInstruction, h]
  exact if_neg (by simp [hz])

/-! ## The prefetch window (R81, 70 R414) -/

/-- In the window the instruction comes from memory as it is now, or before the stores of the last instruction, or
before those of the last two. -/
theorem State.fetchMemory_inWindow {s : State} (h : s.inWindow = true) :
    s.fetchMemory = s.mem ∨ s.fetchMemory = undone s.recentStores s.mem ∨
      s.fetchMemory = undone s.olderStores (undone s.recentStores s.mem) := by
  rw [State.fetchMemory, if_pos h]
  split
  · exact .inl rfl
  · exact .inr (.inl rfl)
  · exact .inr (.inr rfl)

/-- In the window an instruction starts with one draw counted. -/
theorem State.started_inWindow {s : State} (h : s.inWindow = true) : s.started = s.drawn := if_pos h

/-- Settles O6: the memory fetched from is one of the three, and each outcome is that of running what it holds. -/
theorem prefetchWindowChoice : Obligations.PrefetchWindowChoice := by
  unfold Obligations.PrefetchWindowChoice
  intro s hs hw
  have inWindow : (startOf s).inWindow = true := hw
  refine ⟨s.fetchMemory, State.fetchMemory_inWindow hw, ?_⟩
  rw [step_undisturbed hs, ← fetched_startOf]
  refine ⟨fun e he => runInstruction_error he, fun i hi => ?_⟩
  rw [← touchesBanked_startOf i s]
  refine ⟨fun hazard => runInstruction_hazard hi hazard, fun clear => ?_⟩
  rw [runInstruction_exec hi clear, State.started_inWindow inWindow]
  rfl

end Sys2Proof.Machine
end

section
/-! SUPPORT. Codes cut up into fields: two codes are one if their fields agree, so that a format is known by its fields
(30_encoding.md R91 to R111). Each format has one equation for both directions of the round trip. -/

namespace Sys2Proof

/-! ## Fields -/

/-- The fields of the given widths, from bit `lo` up, are the same in `x` and `y`. -/
def fieldsAgree {w : Nat} (x y : BitVec w) : Nat → List Nat → Prop
  | _, [] => True
  | lo, n :: ns => x.extractLsb' lo n = y.extractLsb' lo n ∧ fieldsAgree x y (lo + n) ns

@[simp] theorem fieldsAgree_nil {w : Nat} (x y : BitVec w) (lo : Nat) : fieldsAgree x y lo [] := trivial

@[simp] theorem fieldsAgree_cons {w : Nat} (x y : BitVec w) (lo n : Nat) (ns : List Nat) :
    fieldsAgree x y lo (n :: ns) ↔ x.extractLsb' lo n = y.extractLsb' lo n ∧ fieldsAgree x y (lo + n) ns := Iff.rfl

theorem extractLsb'_eq_iff {w n : Nat} {x : BitVec w} {lo : Nat} {y : BitVec n} :
    x.extractLsb' lo n = y ↔ ∀ i < n, x.getLsbD (lo + i) = y.getLsbD i := by
  rw [BitVec.eq_of_getLsbD_eq_iff]
  refine forall₂_congr fun i hi => ?_
  rw [BitVec.getLsbD_extractLsb', decide_eq_true hi, Bool.true_and]

theorem fieldsAgree_iff {w : Nat} {x y : BitVec w} (lo : Nat) (ns : List Nat) :
    fieldsAgree x y lo ns ↔ ∀ i, lo ≤ i → i < lo + ns.sum → x.getLsbD i = y.getLsbD i := by
  induction ns generalizing lo with
  | nil => simp only [fieldsAgree_nil, List.sum_nil, true_iff]; omega
  | cons n ns ih =>
    have field : x.extractLsb' lo n = y.extractLsb' lo n ↔ ∀ j < n, x.getLsbD (lo + j) = y.getLsbD (lo + j) := by
      rw [extractLsb'_eq_iff]
      exact forall₂_congr fun j hj => by rw [BitVec.getLsbD_extractLsb', decide_eq_true hj, Bool.true_and]
    rw [fieldsAgree_cons, ih, field, List.sum_cons]
    constructor
    · rintro ⟨low, high⟩ i hi hlt
      by_cases hin : i < lo + n
      · simpa [Nat.add_sub_cancel' hi] using low (i - lo) (by omega)
      · exact high i (by omega) (by omega)
    · exact fun h => ⟨fun j _ => h _ (by omega) (by omega), fun i _ _ => h i (by omega) (by omega)⟩

/-- Two codes are one if their fields agree, whatever the widths that cut them up. -/
theorem eq_iff_fieldsAgree {w : Nat} {x y : BitVec w} (ns : List Nat) (h : ns.sum = w) :
    x = y ↔ fieldsAgree x y 0 ns := by
  rw [fieldsAgree_iff, h]
  exact ⟨fun e i _ _ => by rw [e], fun e => BitVec.eq_of_getLsbD_eq fun i hi => e i (Nat.zero_le i) (by omega)⟩

/-- A part of a field. -/
theorem extractLsb'_of_field {w lo n : Nat} {x : BitVec w} {y : BitVec n} (h : x.extractLsb' lo n = y) (a m : Nat)
    (ha : a + m ≤ n) : x.extractLsb' (lo + a) m = y.extractLsb' a m := by
  rw [extractLsb'_eq_iff] at *
  intro i hi
  rw [Nat.add_assoc, h _ (by omega), BitVec.getLsbD_extractLsb', decide_eq_true hi, Bool.true_and]

/-- A bit of a field. -/
theorem getLsbD_of_field {w lo n : Nat} {x : BitVec w} {y : BitVec n} (h : x.extractLsb' lo n = y) (i : Nat)
    (hi : i < n) : x.getLsbD (lo + i) = y.getLsbD i := extractLsb'_eq_iff.1 h i hi

@[simp] theorem extractLsb'_eq_bit_iff {w : Nat} (x : BitVec w) (i : Nat) (b : Bool) :
    x.extractLsb' i 1 = bit b ↔ x.getLsbD i = b := by
  rw [extractLsb'_eq_iff]
  simp [getLsbD_bit]

@[simp] theorem extractLsb'_eq_zero_iff {w : Nat} (x : BitVec w) (i : Nat) :
    x.extractLsb' i 1 = 0#1 ↔ x.getLsbD i = false := extractLsb'_eq_bit_iff x i false

@[simp] theorem extractLsb'_eq_one_iff {w : Nat} (x : BitVec w) (i : Nat) :
    x.extractLsb' i 1 = 1#1 ↔ x.getLsbD i = true := extractLsb'_eq_bit_iff x i true

@[simp] theorem extractLsb'_one_eq_iff {w v : Nat} (x : BitVec w) (y : BitVec v) (i j : Nat) :
    x.extractLsb' i 1 = y.extractLsb' j 1 ↔ x.getLsbD i = y.getLsbD j := by
  rw [(extractLsb'_eq_bit_iff y j _).2 rfl, extractLsb'_eq_bit_iff]

/-! ## The ARM formats -/

theorem eq_encodeDpImm_iff {w : Word} {op : AluOp} {c : Cond} {s : Bool} {rn rd : Reg} {rot : BitVec 4}
    {imm : BitVec 8} :
    w = encodeDpImm op c s rn rd rot imm ↔
      w.extractLsb' 0 8 = imm ∧ w.extractLsb' 8 4 = rot ∧ w.extractLsb' 12 4 = rd ∧ w.extractLsb' 16 4 = rn ∧
      w.getLsbD 20 = s ∧ w.extractLsb' 21 4 = op.bits ∧ w.extractLsb' 25 3 = 1#3 ∧ w.extractLsb' 28 4 = c.bits := by
  refine (eq_iff_fieldsAgree [8, 4, 4, 4, 1, 4, 3, 4] (by rfl)).trans ?_
  simp (disch := omega) [encodeDpImm, extractLsb'_union, wordAt_same, wordAt_apart]

theorem eq_encodeDpShImm_iff {w : Word} {op : AluOp} {c : Cond} {s : Bool} {rn rd : Reg} {n : BitVec 5} {sh : Shift}
    {rm : Reg} :
    w = encodeDpShImm op c s rn rd n sh rm ↔
      w.extractLsb' 0 4 = rm ∧ w.getLsbD 4 = false ∧ w.extractLsb' 5 2 = sh.bits ∧ w.extractLsb' 7 5 = n ∧
      w.extractLsb' 12 4 = rd ∧ w.extractLsb' 16 4 = rn ∧ w.getLsbD 20 = s ∧ w.extractLsb' 21 4 = op.bits ∧
      w.extractLsb' 25 3 = 0#3 ∧ w.extractLsb' 28 4 = c.bits := by
  refine (eq_iff_fieldsAgree [4, 1, 2, 5, 4, 4, 1, 4, 3, 4] (by rfl)).trans ?_
  simp (disch := omega) [encodeDpShImm, extractLsb'_union, wordAt_same, wordAt_apart]

theorem eq_encodeDpShReg_iff {w : Word} {op : AluOp} {c : Cond} {s : Bool} {rn rd rs : Reg} {sh : Shift} {rm : Reg} :
    w = encodeDpShReg op c s rn rd rs sh rm ↔
      w.extractLsb' 0 4 = rm ∧ w.getLsbD 4 = true ∧ w.extractLsb' 5 2 = sh.bits ∧ w.getLsbD 7 = false ∧
      w.extractLsb' 8 4 = rs ∧ w.extractLsb' 12 4 = rd ∧ w.extractLsb' 16 4 = rn ∧ w.getLsbD 20 = s ∧
      w.extractLsb' 21 4 = op.bits ∧ w.extractLsb' 25 3 = 0#3 ∧ w.extractLsb' 28 4 = c.bits := by
  refine (eq_iff_fieldsAgree [4, 1, 2, 1, 4, 4, 4, 1, 4, 3, 4] (by rfl)).trans ?_
  simp (disch := omega) [encodeDpShReg, extractLsb'_union, wordAt_same, wordAt_apart]

theorem eq_mrs_iff {w : Word} {c : Cond} {r : Bool} {rd : Reg} :
    w = wordAt 28 c.bits ||| wordAt 23 0b00010#5 ||| wordAt 22 (bit r) ||| wordAt 16 0b1111#4 ||| wordAt 12 rd ↔
      w.extractLsb' 0 12 = 0#12 ∧ w.extractLsb' 12 4 = rd ∧ w.extractLsb' 16 4 = 0b1111#4 ∧ w.getLsbD 20 = false ∧
      w.getLsbD 21 = false ∧ w.getLsbD 22 = r ∧ w.extractLsb' 23 2 = 0b10#2 ∧ w.extractLsb' 25 3 = 0#3 ∧
      w.extractLsb' 28 4 = c.bits := by
  refine (eq_iff_fieldsAgree [12, 4, 4, 1, 1, 1, 2, 3, 4] (by rfl)).trans ?_
  simp (disch := omega) [extractLsb'_union, wordAt_same, wordAt_apart, wordAt_inside]

theorem eq_msrReg_iff {w : Word} {c : Cond} {r : Bool} {mask : BitVec 4} {rm : Reg} :
    w = wordAt 28 c.bits ||| wordAt 23 0b00010#5 ||| wordAt 22 (bit r) ||| wordAt 20 0b10#2 ||| wordAt 16 mask |||
        wordAt 12 0b1111#4 ||| wordAt 0 rm ↔
      w.extractLsb' 0 4 = rm ∧ w.extractLsb' 4 8 = 0#8 ∧ w.extractLsb' 12 4 = 0b1111#4 ∧ w.extractLsb' 16 4 = mask ∧
      w.getLsbD 20 = false ∧ w.getLsbD 21 = true ∧ w.getLsbD 22 = r ∧ w.extractLsb' 23 2 = 0b10#2 ∧
      w.extractLsb' 25 3 = 0#3 ∧ w.extractLsb' 28 4 = c.bits := by
  refine (eq_iff_fieldsAgree [4, 8, 4, 4, 1, 1, 1, 2, 3, 4] (by rfl)).trans ?_
  simp (disch := omega) [extractLsb'_union, wordAt_same, wordAt_apart, wordAt_inside]

theorem eq_msrImm_iff {w : Word} {c : Cond} {r : Bool} {mask rot : BitVec 4} {imm : BitVec 8} :
    w = wordAt 28 c.bits ||| wordAt 23 0b00110#5 ||| wordAt 22 (bit r) ||| wordAt 20 0b10#2 ||| wordAt 16 mask |||
        wordAt 12 0b1111#4 ||| wordAt 8 rot ||| wordAt 0 imm ↔
      w.extractLsb' 0 8 = imm ∧ w.extractLsb' 8 4 = rot ∧ w.extractLsb' 12 4 = 0b1111#4 ∧ w.extractLsb' 16 4 = mask ∧
      w.getLsbD 20 = false ∧ w.getLsbD 21 = true ∧ w.getLsbD 22 = r ∧ w.extractLsb' 23 2 = 0b10#2 ∧
      w.extractLsb' 25 3 = 1#3 ∧ w.extractLsb' 28 4 = c.bits := by
  refine (eq_iff_fieldsAgree [8, 4, 4, 4, 1, 1, 1, 2, 3, 4] (by rfl)).trans ?_
  simp (disch := omega) [extractLsb'_union, wordAt_same, wordAt_apart, wordAt_inside]

theorem eq_bx_iff {w : Word} {c : Cond} {rm : Reg} :
    w = wordAt 28 c.bits ||| wordAt 4 0x12FFF1#24 ||| wordAt 0 rm ↔
      w.extractLsb' 0 4 = rm ∧ w.extractLsb' 4 4 = 0b0001#4 ∧ w.extractLsb' 8 12 = 0xFFF#12 ∧
      w.extractLsb' 20 8 = 0b00010010#8 ∧ w.extractLsb' 28 4 = c.bits := by
  refine (eq_iff_fieldsAgree [4, 4, 12, 8, 4] (by rfl)).trans ?_
  simp (disch := omega) [extractLsb'_union, wordAt_same, wordAt_apart, wordAt_inside]

/-- The lowest bit of the kind of a multiply stands beside its accumulate bit. -/
theorem multiplyKind_union (kind : BitVec 3) (a : Bool) :
    (wordAt 22 kind).extractLsb' 21 3 ||| (wordAt 21 (bit a)).extractLsb' 21 3 = kind.extractLsb' 0 2 ++ bit a := by
  revert kind a
  decide

theorem eq_encodeMultiply_iff {w : Word} {c : Cond} {kind : BitVec 3} {a s : Bool} {hi lo rs rm : Reg} :
    w = encodeMultiply c kind a s hi lo rs rm ↔
      w.extractLsb' 0 4 = rm ∧ w.getLsbD 4 = true ∧ w.extractLsb' 5 2 = 0#2 ∧ w.getLsbD 7 = true ∧
      w.extractLsb' 8 4 = rs ∧ w.extractLsb' 12 4 = lo ∧ w.extractLsb' 16 4 = hi ∧ w.getLsbD 20 = s ∧
      w.extractLsb' 21 3 = kind.extractLsb' 0 2 ++ bit a ∧ w.getLsbD 24 = kind.getLsbD 2 ∧ w.extractLsb' 25 3 = 0#3 ∧
      w.extractLsb' 28 4 = c.bits := by
  refine (eq_iff_fieldsAgree [4, 1, 2, 1, 4, 4, 4, 1, 3, 1, 3, 4] (by rfl)).trans ?_
  simp (disch := omega) [encodeMultiply, multiplyKind_union, extractLsb'_union, wordAt_same, wordAt_apart,
    wordAt_inside]

theorem eq_swap_iff {w : Word} {c : Cond} {kind : BitVec 8} {rn rd rm : Reg} :
    w = wordAt 28 c.bits ||| wordAt 20 kind ||| wordAt 16 rn ||| wordAt 12 rd ||| wordAt 4 0b00001001#8 |||
        wordAt 0 rm ↔
      w.extractLsb' 0 4 = rm ∧ w.getLsbD 4 = true ∧ w.extractLsb' 5 2 = 0#2 ∧ w.getLsbD 7 = true ∧
      w.extractLsb' 8 4 = 0#4 ∧ w.extractLsb' 12 4 = rd ∧ w.extractLsb' 16 4 = rn ∧
      w.extractLsb' 20 2 = kind.extractLsb' 0 2 ∧ w.getLsbD 22 = kind.getLsbD 2 ∧ w.getLsbD 23 = kind.getLsbD 3 ∧
      w.getLsbD 24 = kind.getLsbD 4 ∧ w.extractLsb' 25 3 = kind.extractLsb' 5 3 ∧ w.extractLsb' 28 4 = c.bits := by
  refine (eq_iff_fieldsAgree [4, 1, 2, 1, 4, 4, 4, 2, 1, 1, 1, 3, 4] (by rfl)).trans ?_
  simp (disch := omega) [extractLsb'_union, wordAt_same, wordAt_apart, wordAt_inside]

theorem eq_encodeHalf_iff {w : Word} {c : Cond} {p u imm wb load : Bool} {rn rd high : Reg} {sh : BitVec 2}
    {low : Reg} :
    w = encodeHalf c p u imm wb load rn rd high sh low ↔
      w.extractLsb' 0 4 = low ∧ w.getLsbD 4 = true ∧ w.extractLsb' 5 2 = sh ∧ w.getLsbD 7 = true ∧
      w.extractLsb' 8 4 = high ∧ w.extractLsb' 12 4 = rd ∧ w.extractLsb' 16 4 = rn ∧ w.getLsbD 20 = load ∧
      w.getLsbD 21 = wb ∧ w.getLsbD 22 = imm ∧ w.getLsbD 23 = u ∧ w.getLsbD 24 = p ∧ w.extractLsb' 25 3 = 0#3 ∧
      w.extractLsb' 28 4 = c.bits := by
  refine (eq_iff_fieldsAgree [4, 1, 2, 1, 4, 4, 4, 1, 1, 1, 1, 1, 3, 4] (by rfl)).trans ?_
  simp (disch := omega) [encodeHalf, extractLsb'_union, wordAt_same, wordAt_apart]

theorem eq_encodeTransferImm_iff {w : Word} {c : Cond} {p u byte wb load : Bool} {rn rd : Reg} {off : BitVec 12} :
    w = encodeTransferImm c p u byte wb load rn rd off ↔
      w.extractLsb' 0 12 = off ∧ w.extractLsb' 12 4 = rd ∧ w.extractLsb' 16 4 = rn ∧ w.getLsbD 20 = load ∧
      w.getLsbD 21 = wb ∧ w.getLsbD 22 = byte ∧ w.getLsbD 23 = u ∧ w.getLsbD 24 = p ∧ w.extractLsb' 25 3 = 2#3 ∧
      w.extractLsb' 28 4 = c.bits := by
  refine (eq_iff_fieldsAgree [12, 4, 4, 1, 1, 1, 1, 1, 3, 4] (by rfl)).trans ?_
  simp (disch := omega) [encodeTransferImm, extractLsb'_union, wordAt_same, wordAt_apart]

theorem eq_encodeTransferReg_iff {w : Word} {c : Cond} {p u byte wb load : Bool} {rn rd : Reg} {n : BitVec 5}
    {sh : Shift} {rm : Reg} :
    w = encodeTransferReg c p u byte wb load rn rd n sh rm ↔
      w.extractLsb' 0 4 = rm ∧ w.getLsbD 4 = false ∧ w.extractLsb' 5 2 = sh.bits ∧ w.extractLsb' 7 5 = n ∧
      w.extractLsb' 12 4 = rd ∧ w.extractLsb' 16 4 = rn ∧ w.getLsbD 20 = load ∧ w.getLsbD 21 = wb ∧
      w.getLsbD 22 = byte ∧ w.getLsbD 23 = u ∧ w.getLsbD 24 = p ∧ w.extractLsb' 25 3 = 3#3 ∧
      w.extractLsb' 28 4 = c.bits := by
  refine (eq_iff_fieldsAgree [4, 1, 2, 5, 4, 4, 1, 1, 1, 1, 1, 3, 4] (by rfl)).trans ?_
  simp (disch := omega) [encodeTransferReg, extractLsb'_union, wordAt_same, wordAt_apart]

theorem eq_undefined_iff {w : Word} {c : Cond} {hi : BitVec 20} {lo : BitVec 4} :
    w = wordAt 28 c.bits ||| wordAt 25 0b011#3 ||| wordAt 5 hi ||| wordAt 4 1#1 ||| wordAt 0 lo ↔
      w.extractLsb' 0 4 = lo ∧ w.getLsbD 4 = true ∧ w.extractLsb' 5 20 = hi ∧ w.extractLsb' 25 3 = 3#3 ∧
      w.extractLsb' 28 4 = c.bits := by
  refine (eq_iff_fieldsAgree [4, 1, 20, 3, 4] (by rfl)).trans ?_
  simp (disch := omega) [extractLsb'_union, wordAt_same, wordAt_apart]

theorem eq_encodeBlock_iff {w : Word} {c : Cond} {p u s wb load : Bool} {rn : Reg} {list : BitVec 16} :
    w = encodeBlock c p u s wb load rn list ↔
      w.extractLsb' 0 16 = list ∧ w.extractLsb' 16 4 = rn ∧ w.getLsbD 20 = load ∧ w.getLsbD 21 = wb ∧
      w.getLsbD 22 = s ∧ w.getLsbD 23 = u ∧ w.getLsbD 24 = p ∧ w.extractLsb' 25 3 = 4#3 ∧
      w.extractLsb' 28 4 = c.bits := by
  refine (eq_iff_fieldsAgree [16, 4, 1, 1, 1, 1, 1, 3, 4] (by rfl)).trans ?_
  simp (disch := omega) [encodeBlock, extractLsb'_union, wordAt_same, wordAt_apart]

theorem eq_offset24_iff {w : Word} {c : Cond} {kind : BitVec 4} {off : BitVec 24} :
    w = wordAt 28 c.bits ||| wordAt 24 kind ||| wordAt 0 off ↔
      w.extractLsb' 0 24 = off ∧ w.getLsbD 24 = kind.getLsbD 0 ∧ w.extractLsb' 25 3 = kind.extractLsb' 1 3 ∧
      w.extractLsb' 28 4 = c.bits := by
  refine (eq_iff_fieldsAgree [24, 1, 3, 4] (by rfl)).trans ?_
  simp (disch := omega) [extractLsb'_union, wordAt_same, wordAt_apart, wordAt_inside]

/-- LDC and STC (R107): the encoder leaves out the bit L of STC, which is 0. -/
def encodeCoprocTransfer (c : Cond) (p u n wb load : Bool) (rn crd cp : Reg) (off : BitVec 8) : Word :=
  wordAt 28 c.bits ||| wordAt 25 0b110#3 ||| wordAt 24 (bit p) ||| wordAt 23 (bit u) ||| wordAt 22 (bit n) |||
    wordAt 21 (bit wb) ||| wordAt 20 (bit load) ||| wordAt 16 rn ||| wordAt 12 crd ||| wordAt 8 cp ||| wordAt 0 off

theorem encode_stc (c : Cond) (p u n wb : Bool) (rn crd cp : Reg) (off : BitVec 8) :
    encode (.stc c p u n wb rn crd cp off) = .arm (encodeCoprocTransfer c p u n wb false rn crd cp off) := by
  rw [encodeCoprocTransfer, show wordAt 20 (bit false) = 0#32 by decide, BitVec.or_zero]
  rfl

theorem encode_ldc (c : Cond) (p u n wb : Bool) (rn crd cp : Reg) (off : BitVec 8) :
    encode (.ldc c p u n wb rn crd cp off) = .arm (encodeCoprocTransfer c p u n wb true rn crd cp off) := rfl

theorem eq_encodeCoprocTransfer_iff {w : Word} {c : Cond} {p u n wb load : Bool} {rn crd cp : Reg} {off : BitVec 8} :
    w = encodeCoprocTransfer c p u n wb load rn crd cp off ↔
      w.extractLsb' 0 8 = off ∧ w.extractLsb' 8 4 = cp ∧ w.extractLsb' 12 4 = crd ∧ w.extractLsb' 16 4 = rn ∧
      w.getLsbD 20 = load ∧ w.getLsbD 21 = wb ∧ w.getLsbD 22 = n ∧ w.getLsbD 23 = u ∧ w.getLsbD 24 = p ∧
      w.extractLsb' 25 3 = 6#3 ∧ w.extractLsb' 28 4 = c.bits := by
  refine (eq_iff_fieldsAgree [8, 4, 4, 4, 1, 1, 1, 1, 1, 3, 4] (by rfl)).trans ?_
  simp (disch := omega) [encodeCoprocTransfer, extractLsb'_union, wordAt_same, wordAt_apart]

theorem eq_cdp_iff {w : Word} {c : Cond} {op1 : BitVec 4} {crn crd cp : Reg} {op2 : BitVec 3} {crm : Reg} :
    w = wordAt 28 c.bits ||| wordAt 24 0b1110#4 ||| wordAt 20 op1 ||| wordAt 16 crn ||| wordAt 12 crd |||
        wordAt 8 cp ||| wordAt 5 op2 ||| wordAt 0 crm ↔
      w.extractLsb' 0 4 = crm ∧ w.getLsbD 4 = false ∧ w.extractLsb' 5 3 = op2 ∧ w.extractLsb' 8 4 = cp ∧
      w.extractLsb' 12 4 = crd ∧ w.extractLsb' 16 4 = crn ∧ w.extractLsb' 20 4 = op1 ∧ w.getLsbD 24 = false ∧
      w.extractLsb' 25 3 = 7#3 ∧ w.extractLsb' 28 4 = c.bits := by
  refine (eq_iff_fieldsAgree [4, 1, 3, 4, 4, 4, 4, 1, 3, 4] (by rfl)).trans ?_
  simp (disch := omega) [extractLsb'_union, wordAt_same, wordAt_apart, wordAt_inside]

/-- MCR and MRC (R108): the encoder leaves out the bit L of MCR, which is 0. -/
def encodeCoprocRegister (c : Cond) (load : Bool) (op1 : BitVec 3) (crn rd cp : Reg) (op2 : BitVec 3) (crm : Reg) :
    Word :=
  wordAt 28 c.bits ||| wordAt 24 0b1110#4 ||| wordAt 21 op1 ||| wordAt 20 (bit load) ||| wordAt 16 crn |||
    wordAt 12 rd ||| wordAt 8 cp ||| wordAt 5 op2 ||| wordAt 4 1#1 ||| wordAt 0 crm

theorem encode_mcr (c : Cond) (op1 : BitVec 3) (crn rd cp : Reg) (op2 : BitVec 3) (crm : Reg) :
    encode (.mcr c op1 crn rd cp op2 crm) = .arm (encodeCoprocRegister c false op1 crn rd cp op2 crm) := by
  rw [encodeCoprocRegister, show wordAt 20 (bit false) = 0#32 by decide, BitVec.or_zero]
  rfl

theorem encode_mrc (c : Cond) (op1 : BitVec 3) (crn rd cp : Reg) (op2 : BitVec 3) (crm : Reg) :
    encode (.mrc c op1 crn rd cp op2 crm) = .arm (encodeCoprocRegister c true op1 crn rd cp op2 crm) := rfl

theorem eq_encodeCoprocRegister_iff {w : Word} {c : Cond} {load : Bool} {op1 : BitVec 3} {crn rd cp : Reg}
    {op2 : BitVec 3} {crm : Reg} :
    w = encodeCoprocRegister c load op1 crn rd cp op2 crm ↔
      w.extractLsb' 0 4 = crm ∧ w.getLsbD 4 = true ∧ w.extractLsb' 5 3 = op2 ∧ w.extractLsb' 8 4 = cp ∧
      w.extractLsb' 12 4 = rd ∧ w.extractLsb' 16 4 = crn ∧ w.getLsbD 20 = load ∧ w.extractLsb' 21 3 = op1 ∧
      w.getLsbD 24 = false ∧ w.extractLsb' 25 3 = 7#3 ∧ w.extractLsb' 28 4 = c.bits := by
  refine (eq_iff_fieldsAgree [4, 1, 3, 4, 4, 4, 1, 3, 1, 3, 4] (by rfl)).trans ?_
  simp (disch := omega) [encodeCoprocRegister, extractLsb'_union, wordAt_same, wordAt_apart, wordAt_inside]

end Sys2Proof
end

section
/-! SUPPORT. The ARM decoder reads back every ARM format (30_encoding.md R95 to R109). -/

namespace Sys2Proof

/-! ## The instruction that the fields of a format give -/

/-- The multiply of bits 23:21 (R100). -/
def multiplyOf (x : BitVec 3) (c : Cond) (s : Bool) (hi lo rs rm : Reg) : Except DecodeError Instr :=
  match x.toNat with
  | 0 => if lo == 0#4 then .ok (.mul c s hi rs rm) else .error .shouldBeField
  | 1 => .ok (.mla c s hi lo rs rm)
  | 4 => .ok (.umull c s hi lo rs rm)
  | 5 => .ok (.umlal c s hi lo rs rm)
  | 6 => .ok (.smull c s hi lo rs rm)
  | 7 => .ok (.smlal c s hi lo rs rm)
  | _ => .error .unallocatedArm

theorem decodeMultiply_eq (c : Cond) (w : Word) :
    decodeMultiply c w = multiplyOf (w.extractLsb' 21 3) c (w.getLsbD 20) (w.extractLsb' 16 4) (w.extractLsb' 12 4)
      (w.extractLsb' 8 4) (w.extractLsb' 0 4) := rfl

/-- The halfword or signed transfer of the S and H bits (R102). -/
def halfOf (c : Cond) (p u imm wb load : Bool) (rn rd high : Reg) (sh : BitVec 2) (low : Reg) :
    Except DecodeError Instr :=
  if !load && sh.toNat != 1 then .error .unallocatedArm
  else if imm then
    match sh.toNat with
    | 1 => if load then .ok (.ldrhImm c p u wb rn rd (high ++ low)) else .ok (.strhImm c p u wb rn rd (high ++ low))
    | 2 => .ok (.ldrsbImm c p u wb rn rd (high ++ low))
    | _ => .ok (.ldrshImm c p u wb rn rd (high ++ low))
  else if high == 0#4 then
    match sh.toNat with
    | 1 => if load then .ok (.ldrhReg c p u wb rn rd low) else .ok (.strhReg c p u wb rn rd low)
    | 2 => .ok (.ldrsbReg c p u wb rn rd low)
    | _ => .ok (.ldrshReg c p u wb rn rd low)
  else .error .shouldBeField

theorem decodeHalf_eq (c : Cond) (w : Word) :
    decodeHalf c w = halfOf c (w.getLsbD 24) (w.getLsbD 23) (w.getLsbD 22) (w.getLsbD 21) (w.getLsbD 20)
      (w.extractLsb' 16 4) (w.extractLsb' 12 4) (w.extractLsb' 8 4) (w.extractLsb' 5 2) (w.extractLsb' 0 4) := rfl

/-- The single transfer of P, B, W and L with an immediate offset (R103). -/
def transferImmOf (c : Cond) (p u byte wb load : Bool) (rn rd : Reg) (off : BitVec 12) : Instr :=
  if p then
    if load then (if byte then .ldrbImm c u wb rn rd off else .ldrImm c u wb rn rd off)
    else (if byte then .strbImm c u wb rn rd off else .strImm c u wb rn rd off)
  else if wb then
    if load then (if byte then .ldrbtImm c u rn rd off else .ldrtImm c u rn rd off)
    else (if byte then .strbtImm c u rn rd off else .strtImm c u rn rd off)
  else
    if load then (if byte then .ldrbImmPost c u rn rd off else .ldrImmPost c u rn rd off)
    else (if byte then .strbImmPost c u rn rd off else .strImmPost c u rn rd off)

theorem decodeTransferImm_eq (c : Cond) (w : Word) :
    decodeTransferImm c w = transferImmOf c (w.getLsbD 24) (w.getLsbD 23) (w.getLsbD 22) (w.getLsbD 21)
      (w.getLsbD 20) (w.extractLsb' 16 4) (w.extractLsb' 12 4) (w.extractLsb' 0 12) := rfl

/-- The single transfer of P, B, W and L with a shifted register offset (R103). -/
def transferRegOf (c : Cond) (p u byte wb load : Bool) (rn rd : Reg) (n : BitVec 5) (sh : Shift) (rm : Reg) : Instr :=
  if p then
    if load then (if byte then .ldrbReg c u wb rn rd n sh rm else .ldrReg c u wb rn rd n sh rm)
    else (if byte then .strbReg c u wb rn rd n sh rm else .strReg c u wb rn rd n sh rm)
  else if wb then
    if load then (if byte then .ldrbtReg c u rn rd n sh rm else .ldrtReg c u rn rd n sh rm)
    else (if byte then .strbtReg c u rn rd n sh rm else .strtReg c u rn rd n sh rm)
  else
    if load then (if byte then .ldrbRegPost c u rn rd n sh rm else .ldrRegPost c u rn rd n sh rm)
    else (if byte then .strbRegPost c u rn rd n sh rm else .strRegPost c u rn rd n sh rm)

theorem decodeTransferReg_eq (c : Cond) (w : Word) :
    decodeTransferReg c w = transferRegOf c (w.getLsbD 24) (w.getLsbD 23) (w.getLsbD 22) (w.getLsbD 21)
      (w.getLsbD 20) (w.extractLsb' 16 4) (w.extractLsb' 12 4) (w.extractLsb' 7 5) (shiftOfBits (w.extractLsb' 5 2))
      (w.extractLsb' 0 4) := rfl

/-- The block transfer of S, L and r15 in the list (R105). -/
def blockOf (c : Cond) (p u s wb load : Bool) (rn : Reg) (list : BitVec 16) : Instr :=
  if load then
    if s then
      if list.getLsbD 15 then .ldm3 c p u wb rn (list.extractLsb' 0 15) else .ldm2 c p u wb rn (list.extractLsb' 0 15)
    else .ldm1 c p u wb rn list
  else if s then .stm2 c p u wb rn list
  else .stm1 c p u wb rn list

theorem decodeBlock_eq (c : Cond) (w : Word) :
    decodeBlock c w = blockOf c (w.getLsbD 24) (w.getLsbD 23) (w.getLsbD 22) (w.getLsbD 21) (w.getLsbD 20)
      (w.extractLsb' 16 4) (w.extractLsb' 0 16) := by
  have pc : w.getLsbD (0 + 15) = (w.extractLsb' 0 16).getLsbD 15 := getLsbD_of_field rfl 15 (by omega)
  have rest : w.extractLsb' (0 + 0) 15 = (w.extractLsb' 0 16).extractLsb' 0 15 :=
    extractLsb'_of_field rfl 0 15 (by omega)
  rw [blockOf, ← pc, ← rest]
  rfl

/-! ## The tests of the decode tree -/

theorem decodeArm_of_condition {w : Word} {c : Cond} (h : w.extractLsb' 28 4 = c.bits) :
    decodeArm w = decodeTree c w := by
  rw [decodeArm, h, condOfBits_bits]

/-- The control instruction space is 10 in bits 24:23 and S = 0 (R95). -/
theorem controlSpace_iff (w : Word) :
    controlSpace w = true ↔ w.extractLsb' 23 2 = 0b10#2 ∧ w.getLsbD 20 = false := by
  rw [controlSpace, Bool.and_eq_true, beq_iff_eq, beq_iff_eq, extractLsb'_eq_zero_iff]

/-- The control instruction space is the compares with S = 0 (R95, R96). -/
theorem controlSpace_eq (w : Word) :
    controlSpace w = ((aluOpOfBits (w.extractLsb' 21 4)).compares && !w.getLsbD 20) := by
  have opcode : ∀ x : BitVec 4, (aluOpOfBits x).compares = true ↔ x.extractLsb' 2 2 = 0b10#2 := by decide
  have high : w.extractLsb' (21 + 2) 2 = (w.extractLsb' 21 4).extractLsb' 2 2 :=
    extractLsb'_of_field rfl 2 2 (by omega)
  rw [Bool.eq_iff_iff, controlSpace_iff, Bool.and_eq_true, opcode, ← high, Bool.not_eq_true']

/-- The fields that a data-processing word fixes: S of a compare is 1 and its Rd is 0, Rn of a move is 0 (R96). -/
def dpFields (op : AluOp) (s : Bool) (rn rd : Reg) : Prop :=
  (op.compares = true → s = true ∧ rd = 0) ∧ (op.moves = true → rn = 0)

theorem dpFields_plain {op : AluOp} {s : Bool} {rn rd : Reg} (hc : op.compares = false) (hm : op.moves = false) :
    dpFields op s rn rd := ⟨by simp [hc], by simp [hm]⟩

theorem dpFields_compare {op : AluOp} {rn : Reg} (h : op.moves = false) : dpFields op true rn 0 :=
  ⟨fun _ => ⟨rfl, rfl⟩, by simp [h]⟩

theorem dpFields_move {op : AluOp} {s : Bool} {rd : Reg} (h : op.compares = false) : dpFields op s 0 rd :=
  ⟨by simp [h], fun _ => rfl⟩

/-- The words with the fields of data processing are those outside the control space whose should-be-zero fields are
zero (R95, R96). -/
theorem dpFields_iff (w : Word) :
    dpFields (aluOpOfBits (w.extractLsb' 21 4)) (w.getLsbD 20) (w.extractLsb' 16 4) (w.extractLsb' 12 4) ↔
      controlSpace w = false ∧ dpFieldsZero w = true := by
  have apart : ∀ op : AluOp, op.compares = true → op.moves = false := by intro op; cases op <;> decide
  rw [controlSpace_eq, dpFieldsZero]
  generalize aluOpOfBits (w.extractLsb' 21 4) = op
  cases hc : op.compares with
  | true => simp [dpFields, hc, apart op hc]
  | false => cases hm : op.moves <;> simp [dpFields, hc, hm]

/-! ## Data processing (R96) -/

theorem decodeArm_dpImm {w : Word} {op : AluOp} {c : Cond} {s : Bool} {rn rd : Reg} {rot : BitVec 4} {imm : BitVec 8}
    (h : w = encodeDpImm op c s rn rd rot imm) (hf : dpFields op s rn rd) :
    decodeArm w = .ok (Instr.dpImm op c s rn rd rot imm) := by
  obtain ⟨immF, rotF, rdF, rnF, sF, opF, cls, cond⟩ := eq_encodeDpImm_iff.1 h
  have fields := dpFields_iff w
  simp only [opF, aluOpOfBits_bits, sF, rnF, rdF, hf, true_iff] at fields
  rw [decodeArm_of_condition cond]
  simp only [decodeTree, cls, fields, decodeDpImm, opF, aluOpOfBits_bits, sF, rnF, rdF, rotF, immF]
  rfl

theorem decodeArm_dpShImm {w : Word} {op : AluOp} {c : Cond} {s : Bool} {rn rd : Reg} {n : BitVec 5} {sh : Shift}
    {rm : Reg} (h : w = encodeDpShImm op c s rn rd n sh rm) (hf : dpFields op s rn rd) :
    decodeArm w = .ok (Instr.dpShImm op c s rn rd n sh rm) := by
  obtain ⟨rmF, bit4, shF, nF, rdF, rnF, sF, opF, cls, cond⟩ := eq_encodeDpShImm_iff.1 h
  have fields := dpFields_iff w
  simp only [opF, aluOpOfBits_bits, sF, rnF, rdF, hf, true_iff] at fields
  rw [decodeArm_of_condition cond]
  simp only [decodeTree, cls, decodeClass0, bit4, fields, decodeDpShImm, opF, aluOpOfBits_bits, sF, rnF, rdF, nF, shF,
    shiftOfBits_bits, rmF]
  rfl

theorem decodeArm_dpShReg {w : Word} {op : AluOp} {c : Cond} {s : Bool} {rn rd rs : Reg} {sh : Shift} {rm : Reg}
    (h : w = encodeDpShReg op c s rn rd rs sh rm) (hf : dpFields op s rn rd) :
    decodeArm w = .ok (Instr.dpShReg op c s rn rd rs sh rm) := by
  obtain ⟨rmF, bit4, shF, bit7, rsF, rdF, rnF, sF, opF, cls, cond⟩ := eq_encodeDpShReg_iff.1 h
  have fields := dpFields_iff w
  simp only [opF, aluOpOfBits_bits, sF, rnF, rdF, hf, true_iff] at fields
  rw [decodeArm_of_condition cond]
  simp only [decodeTree, cls, decodeClass0, bit4, bit7, fields, decodeDpShReg, opF, aluOpOfBits_bits, sF, rnF, rdF, rsF,
    shF, shiftOfBits_bits, rmF]
  rfl

/-! ## Status registers, BX, multiplies and swaps (R98 to R101) -/

theorem decode_encode_mrs (c : Cond) (r : Bool) (rd : Reg) :
    decode (encode (.mrs c r rd)) = .ok (.mrs c r rd) := by
  obtain ⟨low, rdF, sbo, bit20, bit21, rF, ctl, cls, cond⟩ := (eq_mrs_iff (c := c) (r := r) (rd := rd)).1 rfl
  have bit4 := getLsbD_of_field low 4 (by omega)
  have control := (controlSpace_iff _).2 ⟨ctl, bit20⟩
  rw [encode, decode, decodeArm_of_condition cond]
  simp only [decodeTree, cls, decodeClass0, bit4, control, decodeStatus, bit21, sbo, low, rF, rdF]
  rfl

theorem decode_encode_msrReg (c : Cond) (r : Bool) (mask : BitVec 4) (rm : Reg) :
    decode (encode (.msrReg c r mask rm)) = .ok (.msrReg c r mask rm) := by
  obtain ⟨rmF, sbz, sbo, maskF, bit20, bit21, rF, ctl, cls, cond⟩ :=
    (eq_msrReg_iff (c := c) (r := r) (mask := mask) (rm := rm)).1 rfl
  have bit4 := getLsbD_of_field sbz 0 (by omega)
  have control := (controlSpace_iff _).2 ⟨ctl, bit20⟩
  rw [encode, decode, decodeArm_of_condition cond]
  simp only [decodeTree, cls, decodeClass0, bit4, control, decodeStatus, bit21, sbo, sbz, rF, maskF, rmF]
  rfl

theorem decode_encode_msrImm (c : Cond) (r : Bool) (mask rot : BitVec 4) (imm : BitVec 8) :
    decode (encode (.msrImm c r mask rot imm)) = .ok (.msrImm c r mask rot imm) := by
  obtain ⟨immF, rotF, sbo, maskF, bit20, bit21, rF, ctl, cls, cond⟩ :=
    (eq_msrImm_iff (c := c) (r := r) (mask := mask) (rot := rot) (imm := imm)).1 rfl
  have control := (controlSpace_iff _).2 ⟨ctl, bit20⟩
  rw [encode, decode, decodeArm_of_condition cond]
  simp only [decodeTree, cls, control, decodeStatusImm, bit21, sbo, rF, maskF, rotF, immF]
  rfl

theorem decode_encode_bx (c : Cond) (rm : Reg) : decode (encode (.bx c rm)) = .ok (.bx c rm) := by
  obtain ⟨rmF, low, sbo, high, cond⟩ := (eq_bx_iff (c := c) (rm := rm)).1 rfl
  have bit4 := getLsbD_of_field low 0 (by omega)
  have bit7 := getLsbD_of_field low 3 (by omega)
  have cls := extractLsb'_of_field high 5 3 (by omega)
  have control := (controlSpace_iff _).2 ⟨extractLsb'_of_field high 3 2 (by omega), getLsbD_of_field high 0 (by omega)⟩
  rw [encode, decode, decodeArm_of_condition cond]
  simp only [decodeTree, cls, decodeClass0, bit4, bit7, control, decodeBx, high, low, sbo, rmF]
  rfl

theorem decodeArm_multiply {w : Word} {c : Cond} {kind : BitVec 3} {a s : Bool} {hi lo rs rm : Reg}
    (h : w = encodeMultiply c kind a s hi lo rs rm) (hk : kind.getLsbD 2 = false) :
    decodeArm w = multiplyOf (kind.extractLsb' 0 2 ++ bit a) c s hi lo rs rm := by
  obtain ⟨rmF, bit4, typ, bit7, rsF, loF, hiF, sF, kindF, bit24, cls, cond⟩ := eq_encodeMultiply_iff.1 h
  rw [decodeArm_of_condition cond]
  simp only [decodeTree, cls, decodeClass0, bit4, bit7, typ, bit24, hk, decodeMultiply_eq, rmF, rsF, loF, hiF,
    sF, kindF]
  rfl

theorem decodeArm_swap {w : Word} {c : Cond} {kind : BitVec 8} {rn rd rm : Reg}
    (h : w = wordAt 28 c.bits ||| wordAt 20 kind ||| wordAt 16 rn ||| wordAt 12 rd ||| wordAt 4 0b00001001#8 |||
      wordAt 0 rm) (hk : kind = 0b00010000#8 ∨ kind = 0b00010100#8) :
    decodeArm w = .ok (if kind.getLsbD 2 then .swpb c rn rd rm else .swp c rn rd rm) := by
  obtain ⟨rmF, bit4, typ, bit7, sbz, rdF, rnF, low, bit22, bit23, bit24, cls, cond⟩ := eq_swap_iff.1 h
  have one := (extractLsb'_one_eq_iff w kind 23 3).2 bit23
  rw [decodeArm_of_condition cond]
  rcases hk with rfl | rfl <;>
  · simp only [decodeTree, cls, decodeClass0, bit4, bit7, typ, bit24, decodeSwap, one, low, sbz, bit22, rnF, rdF, rmF]
    rfl

/-! ## Transfers (R102 to R105) -/

/-- The two parts of the offset of a halfword transfer (R102). -/
theorem append_offset (off : BitVec 8) : off.extractLsb' 4 4 ++ off.extractLsb' 0 4 = off := by
  revert off
  decide

theorem decodeArm_half {w : Word} {c : Cond} {p u imm wb load : Bool} {rn rd high : Reg} {sh : BitVec 2} {low : Reg}
    (h : w = encodeHalf c p u imm wb load rn rd high sh low) (hsh : sh ≠ 0#2) :
    decodeArm w = halfOf c p u imm wb load rn rd high sh low := by
  obtain ⟨lowF, bit4, shF, bit7, highF, rdF, rnF, loadF, wbF, immF, uF, pF, cls, cond⟩ := eq_encodeHalf_iff.1 h
  rw [decodeArm_of_condition cond]
  simp only [decodeTree, cls, decodeClass0, bit4, bit7, shF, beq_false_of_ne hsh, decodeHalf_eq, lowF, highF, rdF, rnF,
    loadF, wbF, immF, uF, pF]
  rfl

theorem decodeArm_halfImm {w : Word} {c : Cond} {p u wb load : Bool} {rn rd : Reg} {sh : BitVec 2} {off : BitVec 8}
    {F : BitVec 8 → Instr}
    (h : w = encodeHalf c p u true wb load rn rd (off.extractLsb' 4 4) sh (off.extractLsb' 0 4)) (hsh : sh ≠ 0#2)
    (hF : ∀ high low, halfOf c p u true wb load rn rd high sh low = .ok (F (high ++ low))) :
    decodeArm w = .ok (F off) := by
  rw [decodeArm_half h hsh, hF, append_offset]

theorem decodeArm_transferImm {w : Word} {c : Cond} {p u byte wb load : Bool} {rn rd : Reg} {off : BitVec 12}
    (h : w = encodeTransferImm c p u byte wb load rn rd off) :
    decodeArm w = .ok (transferImmOf c p u byte wb load rn rd off) := by
  obtain ⟨offF, rdF, rnF, loadF, wbF, byteF, uF, pF, cls, cond⟩ := eq_encodeTransferImm_iff.1 h
  rw [decodeArm_of_condition cond]
  simp only [decodeTree, cls, decodeTransferImm_eq, offF, rdF, rnF, loadF, wbF, byteF, uF, pF]
  rfl

theorem decodeArm_transferReg {w : Word} {c : Cond} {p u byte wb load : Bool} {rn rd : Reg} {n : BitVec 5} {sh : Shift}
    {rm : Reg} (h : w = encodeTransferReg c p u byte wb load rn rd n sh rm) :
    decodeArm w = .ok (transferRegOf c p u byte wb load rn rd n sh rm) := by
  obtain ⟨rmF, bit4, shF, nF, rdF, rnF, loadF, wbF, byteF, uF, pF, cls, cond⟩ := eq_encodeTransferReg_iff.1 h
  rw [decodeArm_of_condition cond]
  simp only [decodeTree, cls, bit4, decodeTransferReg_eq, rmF, shF, shiftOfBits_bits, nF, rdF, rnF, loadF, wbF, byteF,
    uF, pF]
  rfl

theorem decode_encode_undefined (c : Cond) (hi : BitVec 20) (lo : BitVec 4) :
    decode (encode (.undefined c hi lo)) = .ok (.undefined c hi lo) := by
  obtain ⟨loF, bit4, hiF, cls, cond⟩ := (eq_undefined_iff (c := c) (hi := hi) (lo := lo)).1 rfl
  rw [encode, decode, decodeArm_of_condition cond]
  simp only [decodeTree, cls, bit4, hiF, loF]
  rfl

/-- A list of r0 to r14 as the low fifteen bits of a list. -/
theorem extractLsb'_setWidth_list (list : BitVec 15) : (list.setWidth 16).extractLsb' 0 15 = list :=
  extractLsb'_eq_iff.2 fun i hi => by simp [show i < 16 by omega]

theorem blockOf_ldm2 (c : Cond) (p u wb : Bool) (rn : Reg) (list : BitVec 15) :
    blockOf c p u true wb true rn (list.setWidth 16) = .ldm2 c p u wb rn list := by
  have pc : (list.setWidth 16).getLsbD 15 = false := by simp
  simp only [blockOf, pc, extractLsb'_setWidth_list]
  rfl

theorem blockOf_ldm3 (c : Cond) (p u wb : Bool) (rn : Reg) (list : BitVec 15) :
    blockOf c p u true wb true rn (list.setWidth 16 ||| 0x8000#16) = .ldm3 c p u wb rn list := by
  have pc : (list.setWidth 16 ||| 0x8000#16).getLsbD 15 = true := by simp
  have top : (0x8000#16).extractLsb' 0 15 = 0#15 := by decide
  simp only [blockOf, pc, extractLsb'_union, extractLsb'_setWidth_list, top, BitVec.or_zero]
  rfl

theorem decodeArm_block {w : Word} {c : Cond} {p u s wb load : Bool} {rn : Reg} {list : BitVec 16}
    (h : w = encodeBlock c p u s wb load rn list) : decodeArm w = .ok (blockOf c p u s wb load rn list) := by
  obtain ⟨listF, rnF, loadF, wbF, sF, uF, pF, cls, cond⟩ := eq_encodeBlock_iff.1 h
  rw [decodeArm_of_condition cond]
  simp only [decodeTree, cls, decodeBlock_eq, listF, rnF, loadF, wbF, sF, uF, pF]
  rfl

/-! ## Branches, coprocessors and SWI (R106 to R109) -/

theorem decode_encode_b (c : Cond) (off : BitVec 24) : decode (encode (.b c off)) = .ok (.b c off) := by
  obtain ⟨offF, link, cls, cond⟩ := (eq_offset24_iff (c := c) (kind := 0b1010#4) (off := off)).1 rfl
  rw [encode, decode, decodeArm_of_condition cond]
  simp only [decodeTree, cls, link, offF]
  rfl

theorem decode_encode_bl (c : Cond) (off : BitVec 24) : decode (encode (.bl c off)) = .ok (.bl c off) := by
  obtain ⟨offF, link, cls, cond⟩ := (eq_offset24_iff (c := c) (kind := 0b1011#4) (off := off)).1 rfl
  rw [encode, decode, decodeArm_of_condition cond]
  simp only [decodeTree, cls, link, offF]
  rfl

theorem decode_encode_swi (c : Cond) (comment : BitVec 24) :
    decode (encode (.swi c comment)) = .ok (.swi c comment) := by
  obtain ⟨commentF, bit24, cls, cond⟩ := (eq_offset24_iff (c := c) (kind := 0b1111#4) (off := comment)).1 rfl
  rw [encode, decode, decodeArm_of_condition cond]
  simp only [decodeTree, cls, decodeCoprocOrSwi, bit24, commentF]
  rfl

theorem decodeArm_coprocTransfer {w : Word} {c : Cond} {p u n wb load : Bool} {rn crd cp : Reg} {off : BitVec 8}
    (h : w = encodeCoprocTransfer c p u n wb load rn crd cp off) :
    decodeArm w = .ok (if load then .ldc c p u n wb rn crd cp off else .stc c p u n wb rn crd cp off) := by
  obtain ⟨offF, cpF, crdF, rnF, loadF, wbF, nF, uF, pF, cls, cond⟩ := eq_encodeCoprocTransfer_iff.1 h
  rw [decodeArm_of_condition cond]
  simp only [decodeTree, cls, decodeCoprocTransfer, loadF, offF, cpF, crdF, rnF, wbF, nF, uF, pF]
  rfl

theorem decode_encode_cdp (c : Cond) (op1 : BitVec 4) (crn crd cp : Reg) (op2 : BitVec 3) (crm : Reg) :
    decode (encode (.cdp c op1 crn crd cp op2 crm)) = .ok (.cdp c op1 crn crd cp op2 crm) := by
  obtain ⟨crmF, bit4, op2F, cpF, crdF, crnF, op1F, bit24, cls, cond⟩ := (eq_cdp_iff (c := c) (op1 := op1)
    (crn := crn) (crd := crd) (cp := cp) (op2 := op2) (crm := crm)).1 rfl
  rw [encode, decode, decodeArm_of_condition cond]
  simp only [decodeTree, cls, decodeCoprocOrSwi, bit24, bit4, crmF, op2F, cpF, crdF, crnF, op1F]
  rfl

theorem decodeArm_coprocRegister {w : Word} {c : Cond} {load : Bool} {op1 : BitVec 3} {crn rd cp : Reg}
    {op2 : BitVec 3} {crm : Reg} (h : w = encodeCoprocRegister c load op1 crn rd cp op2 crm) :
    decodeArm w =
      .ok (if load then .mrc c op1 crn rd cp op2 crm else .mcr c op1 crn rd cp op2 crm) := by
  obtain ⟨crmF, bit4, op2F, cpF, rdF, crnF, loadF, op1F, bit24, cls, cond⟩ := eq_encodeCoprocRegister_iff.1 h
  rw [decodeArm_of_condition cond]
  simp only [decodeTree, cls, decodeCoprocOrSwi, bit24, bit4, loadF, crmF, op2F, cpF, rdF, crnF, op1F]
  rfl

/-! ## Every ARM instruction -/

theorem decode_encode_arm {i : Instr} (hi : Machine.thumbSet i = false) : decode (encode i) = .ok i := by
  cases i with
  | andImm | eorImm | subImm | rsbImm | addImm | adcImm | sbcImm | rscImm | orrImm | bicImm =>
    exact decodeArm_dpImm rfl (dpFields_plain rfl rfl)
  | tstImm | teqImm | cmpImm | cmnImm => exact decodeArm_dpImm rfl (dpFields_compare rfl)
  | movImm | mvnImm => exact decodeArm_dpImm rfl (dpFields_move rfl)
  | andShImm | eorShImm | subShImm | rsbShImm | addShImm | adcShImm | sbcShImm | rscShImm | orrShImm | bicShImm =>
    exact decodeArm_dpShImm rfl (dpFields_plain rfl rfl)
  | tstShImm | teqShImm | cmpShImm | cmnShImm => exact decodeArm_dpShImm rfl (dpFields_compare rfl)
  | movShImm | mvnShImm => exact decodeArm_dpShImm rfl (dpFields_move rfl)
  | andShReg | eorShReg | subShReg | rsbShReg | addShReg | adcShReg | sbcShReg | rscShReg | orrShReg | bicShReg =>
    exact decodeArm_dpShReg rfl (dpFields_plain rfl rfl)
  | tstShReg | teqShReg | cmpShReg | cmnShReg => exact decodeArm_dpShReg rfl (dpFields_compare rfl)
  | movShReg | mvnShReg => exact decodeArm_dpShReg rfl (dpFields_move rfl)
  | mrs => exact decode_encode_mrs ..
  | msrReg => exact decode_encode_msrReg ..
  | msrImm => exact decode_encode_msrImm ..
  | bx => exact decode_encode_bx ..
  | mul | mla | umull | umlal | smull | smlal => exact decodeArm_multiply rfl (by decide)
  | swp => exact decodeArm_swap rfl (.inl rfl)
  | swpb => exact decodeArm_swap rfl (.inr rfl)
  | strhReg | ldrhReg | ldrsbReg | ldrshReg => exact decodeArm_half rfl (by decide)
  | strhImm | ldrhImm | ldrsbImm | ldrshImm => exact decodeArm_halfImm rfl (by decide) fun _ _ => rfl
  | strImm | strImmPost | strtImm | ldrImm | ldrImmPost | ldrtImm | strbImm | strbImmPost | strbtImm | ldrbImm
  | ldrbImmPost | ldrbtImm => exact decodeArm_transferImm rfl
  | strReg | strRegPost | strtReg | ldrReg | ldrRegPost | ldrtReg | strbReg | strbRegPost | strbtReg | ldrbReg
  | ldrbRegPost | ldrbtReg => exact decodeArm_transferReg rfl
  | undefined => exact decode_encode_undefined ..
  | ldm1 | stm1 | stm2 => exact decodeArm_block rfl
  | ldm2 c p u w rn list => exact (decodeArm_block rfl).trans (congrArg _ (blockOf_ldm2 ..))
  | ldm3 c p u w rn list => exact (decodeArm_block rfl).trans (congrArg _ (blockOf_ldm3 ..))
  | b => exact decode_encode_b ..
  | bl => exact decode_encode_bl ..
  | swi => exact decode_encode_swi ..
  | stc =>
    rw [encode_stc]
    exact decodeArm_coprocTransfer rfl
  | ldc =>
    rw [encode_ldc]
    exact decodeArm_coprocTransfer rfl
  | cdp => exact decode_encode_cdp ..
  | mcr =>
    rw [encode_mcr]
    exact decodeArm_coprocRegister rfl
  | mrc =>
    rw [encode_mrc]
    exact decodeArm_coprocRegister rfl
  | _ => cases hi

end Sys2Proof
end

section
/-! SUPPORT. The Thumb formats by their fields, and the Thumb decoder reads back every one of them (30_encoding.md R110
to R118). -/

namespace Sys2Proof

/-- Two fields side by side. -/
theorem extractLsb'_join {w lo m n : Nat} {x : BitVec w} {y : BitVec m} {z : BitVec n}
    (hy : x.extractLsb' (lo + n) m = y) (hz : x.extractLsb' lo n = z) : x.extractLsb' lo (m + n) = y ++ z := by
  rw [extractLsb'_eq_iff] at *
  intro i hi
  rw [BitVec.getLsbD_append]
  split
  · exact hz i ‹_›
  · rw [← hy _ (by omega)]
    congr 1
    omega

/-! ## The Thumb formats -/

/-- Formats 1, 9 and 10: a field of five bits and two registers (R110). -/
theorem eq_offset5_iff {h : Half} {k x : BitVec 5} {rs rd : LowReg} :
    h = halfAt 11 k ||| halfAt 6 x ||| halfAt 3 rs ||| halfAt 0 rd ↔
      h.extractLsb' 0 3 = rd ∧ h.extractLsb' 3 3 = rs ∧ h.extractLsb' 6 5 = x ∧ h.extractLsb' 11 5 = k := by
  refine (eq_iff_fieldsAgree [3, 3, 5, 5] (by rfl)).trans ?_
  simp (disch := omega) [extractLsb'_union, halfAt_same, halfAt_apart]

/-- Formats 2, 7 and 8: three registers. -/
theorem eq_threeRegs_iff {h : Half} {k : BitVec 7} {x rs rd : LowReg} :
    h = halfAt 9 k ||| halfAt 6 x ||| halfAt 3 rs ||| halfAt 0 rd ↔
      h.extractLsb' 0 3 = rd ∧ h.extractLsb' 3 3 = rs ∧ h.extractLsb' 6 3 = x ∧ h.extractLsb' 9 7 = k := by
  refine (eq_iff_fieldsAgree [3, 3, 3, 7] (by rfl)).trans ?_
  simp (disch := omega) [extractLsb'_union, halfAt_same, halfAt_apart]

/-- Formats 3, 6, 11, 12 and 15: a register and a field of eight bits. -/
theorem eq_regImm8_iff {h : Half} {k : BitVec 5} {rd : LowReg} {imm : BitVec 8} :
    h = halfAt 11 k ||| halfAt 8 rd ||| halfAt 0 imm ↔
      h.extractLsb' 0 8 = imm ∧ h.extractLsb' 8 3 = rd ∧ h.extractLsb' 11 5 = k := by
  refine (eq_iff_fieldsAgree [8, 3, 5] (by rfl)).trans ?_
  simp (disch := omega) [extractLsb'_union, halfAt_same, halfAt_apart]

/-- Format 4: two registers. -/
theorem eq_twoRegs_iff {h : Half} {k : BitVec 10} {rs rd : LowReg} :
    h = halfAt 6 k ||| halfAt 3 rs ||| halfAt 0 rd ↔
      h.extractLsb' 0 3 = rd ∧ h.extractLsb' 3 3 = rs ∧ h.extractLsb' 6 10 = k := by
  refine (eq_iff_fieldsAgree [3, 3, 10] (by rfl)).trans ?_
  simp (disch := omega) [extractLsb'_union, halfAt_same, halfAt_apart]

/-- Format 5: two registers of four bits. -/
theorem eq_highRegs_iff {h : Half} {k : BitVec 8} {d s : Reg} :
    h = halfAt 8 k ||| halfAt 7 (d.extractLsb' 3 1) ||| halfAt 3 s ||| halfAt 0 (d.extractLsb' 0 3) ↔
      h.extractLsb' 0 3 = d.extractLsb' 0 3 ∧ h.extractLsb' 3 4 = s ∧ h.getLsbD 7 = d.getLsbD 3 ∧
      h.extractLsb' 8 8 = k := by
  refine (eq_iff_fieldsAgree [3, 4, 1, 8] (by rfl)).trans ?_
  simp (disch := omega) [extractLsb'_union, halfAt_same, halfAt_apart]

/-- BX of format 5. -/
theorem eq_encodeThumbBx_iff {h : Half} {k : BitVec 9} {s : Reg} :
    h = halfAt 7 k ||| halfAt 3 s ↔ h.extractLsb' 0 3 = 0#3 ∧ h.extractLsb' 3 4 = s ∧ h.extractLsb' 7 9 = k := by
  refine (eq_iff_fieldsAgree [3, 4, 9] (by rfl)).trans ?_
  simp (disch := omega) [extractLsb'_union, halfAt_same, halfAt_apart]

/-- Format 13: a field of seven bits. -/
theorem eq_imm7_iff {h : Half} {k : BitVec 9} {imm : BitVec 7} :
    h = halfAt 7 k ||| halfAt 0 imm ↔ h.extractLsb' 0 7 = imm ∧ h.extractLsb' 7 9 = k := by
  refine (eq_iff_fieldsAgree [7, 9] (by rfl)).trans ?_
  simp (disch := omega) [extractLsb'_union, halfAt_same, halfAt_apart]

/-- Format 14: one bit and a list of registers. -/
theorem eq_bitList_iff {h : Half} {k : BitVec 7} {b : Bool} {list : BitVec 8} :
    h = halfAt 9 k ||| halfAt 8 (bit b) ||| halfAt 0 list ↔
      h.extractLsb' 0 8 = list ∧ h.getLsbD 8 = b ∧ h.extractLsb' 9 7 = k := by
  refine (eq_iff_fieldsAgree [8, 1, 7] (by rfl)).trans ?_
  simp (disch := omega) [extractLsb'_union, halfAt_same, halfAt_apart]

/-- Formats 16 and 17: a field of eight bits. -/
theorem eq_imm8_iff {h : Half} {k : BitVec 8} {imm : BitVec 8} :
    h = halfAt 8 k ||| halfAt 0 imm ↔ h.extractLsb' 0 8 = imm ∧ h.extractLsb' 8 8 = k := by
  refine (eq_iff_fieldsAgree [8, 8] (by rfl)).trans ?_
  simp (disch := omega) [extractLsb'_union, halfAt_same, halfAt_apart]

/-- Formats 18 and 19: a field of eleven bits. -/
theorem eq_imm11_iff {h : Half} {k : BitVec 5} {imm : BitVec 11} :
    h = halfAt 11 k ||| halfAt 0 imm ↔ h.extractLsb' 0 11 = imm ∧ h.extractLsb' 11 5 = k := by
  refine (eq_iff_fieldsAgree [11, 5] (by rfl)).trans ?_
  simp (disch := omega) [extractLsb'_union, halfAt_same, halfAt_apart]

/-! ## The instruction that the fields of a format give -/

/-- The instruction of bits 10:9 of format 2. -/
def format2Of (bit10 bit9 : Bool) (x rs rd : LowReg) : Instr :=
  if bit10 then (if bit9 then .tSubImm3 x rs rd else .tAddImm3 x rs rd)
  else (if bit9 then .tSubReg x rs rd else .tAddReg x rs rd)

theorem decodeFormat2_eq (h : Half) :
    decodeFormat2 h = format2Of (h.getLsbD 10) (h.getLsbD 9) (h.extractLsb' 6 3) (h.extractLsb' 3 3)
      (h.extractLsb' 0 3) := rfl

/-- The instruction of bits 9:6 of format 4. -/
def format4Of (x : BitVec 4) (rs rd : LowReg) : Instr :=
  match x.toNat with
  | 0 => .tAnd rs rd
  | 1 => .tEor rs rd
  | 2 => .tLslReg rs rd
  | 3 => .tLsrReg rs rd
  | 4 => .tAsrReg rs rd
  | 5 => .tAdc rs rd
  | 6 => .tSbc rs rd
  | 7 => .tRorReg rs rd
  | 8 => .tTst rs rd
  | 9 => .tNeg rs rd
  | 10 => .tCmp rs rd
  | 11 => .tCmn rs rd
  | 12 => .tOrr rs rd
  | 13 => .tMul rs rd
  | 14 => .tBic rs rd
  | _ => .tMvn rs rd

theorem decodeFormat4_eq (h : Half) :
    decodeFormat4 h = format4Of (h.extractLsb' 6 4) (h.extractLsb' 3 3) (h.extractLsb' 0 3) := rfl

/-- The instruction of bits 11:9 of formats 7 and 8. -/
def format78Of (x : BitVec 3) (ro rb rd : LowReg) : Instr :=
  match x.toNat with
  | 0 => .tStrReg ro rb rd
  | 1 => .tStrhReg ro rb rd
  | 2 => .tStrbReg ro rb rd
  | 3 => .tLdsbReg ro rb rd
  | 4 => .tLdrReg ro rb rd
  | 5 => .tLdrhReg ro rb rd
  | 6 => .tLdrbReg ro rb rd
  | _ => .tLdshReg ro rb rd

theorem decodeFormat78_eq (h : Half) :
    decodeFormat78 h = format78Of (h.extractLsb' 9 3) (h.extractLsb' 6 3) (h.extractLsb' 3 3) (h.extractLsb' 0 3) := rfl

/-- The instruction of bits 11:8 of formats 16 and 17 (R113). -/
def format1617Of (x : BitVec 4) (low : BitVec 8) : Instr :=
  match x.toNat with
  | 0 => .tBeq low
  | 1 => .tBne low
  | 2 => .tBcs low
  | 3 => .tBcc low
  | 4 => .tBmi low
  | 5 => .tBpl low
  | 6 => .tBvs low
  | 7 => .tBvc low
  | 8 => .tBhi low
  | 9 => .tBls low
  | 10 => .tBge low
  | 11 => .tBlt low
  | 12 => .tBgt low
  | 13 => .tBle low
  | 14 => .tUndefined low
  | _ => .tSwi low

theorem decodeFormat1617_eq (h : Half) :
    decodeFormat1617 h = format1617Of (h.extractLsb' 8 4) (h.extractLsb' 0 8) := rfl

/-! ## Reading the formats back -/

/-- The decoder of a format of three fields below bits 15:11 reads an encoding of it back. -/
theorem decodeThumb_offset5 {k x : BitVec 5} {rs rd : LowReg} {F : BitVec 5 → LowReg → LowReg → Instr}
    (hF : ∀ h : Half, h.extractLsb' 11 5 = k →
      decodeThumb h = .ok (F (h.extractLsb' 6 5) (h.extractLsb' 3 3) (h.extractLsb' 0 3))) :
    decodeThumb (halfAt 11 k ||| halfAt 6 x ||| halfAt 3 rs ||| halfAt 0 rd) = .ok (F x rs rd) := by
  obtain ⟨rdF, rsF, xF, high⟩ := (eq_offset5_iff (k := k) (x := x) (rs := rs) (rd := rd)).1 rfl
  rw [hF _ high, rdF, rsF, xF]

theorem decodeThumb_regImm8 {k : BitVec 5} {rd : LowReg} {imm : BitVec 8} {F : LowReg → BitVec 8 → Instr}
    (hF : ∀ h : Half, h.extractLsb' 11 5 = k → decodeThumb h = .ok (F (h.extractLsb' 8 3) (h.extractLsb' 0 8))) :
    decodeThumb (halfAt 11 k ||| halfAt 8 rd ||| halfAt 0 imm) = .ok (F rd imm) := by
  obtain ⟨immF, rdF, high⟩ := (eq_regImm8_iff (k := k) (rd := rd) (imm := imm)).1 rfl
  rw [hF _ high, rdF, immF]

theorem decodeThumb_imm11 {k : BitVec 5} {imm : BitVec 11} {F : BitVec 11 → Instr}
    (hF : ∀ h : Half, h.extractLsb' 11 5 = k → decodeThumb h = .ok (F (h.extractLsb' 0 11))) :
    decodeThumb (halfAt 11 k ||| halfAt 0 imm) = .ok (F imm) := by
  obtain ⟨immF, high⟩ := (eq_imm11_iff (k := k) (imm := imm)).1 rfl
  rw [hF _ high, immF]

theorem decodeThumb_format2 {h : Half} {k : BitVec 7} {x rs rd : LowReg}
    (e : h = halfAt 9 k ||| halfAt 6 x ||| halfAt 3 rs ||| halfAt 0 rd) (hk : k.extractLsb' 2 5 = 3#5) :
    decodeThumb h = .ok (format2Of (k.getLsbD 1) (k.getLsbD 0) x rs rd) := by
  obtain ⟨rdF, rsF, xF, high⟩ := eq_threeRegs_iff.1 e
  have format := (extractLsb'_of_field high 2 5 (by omega)).trans hk
  have bit10 := getLsbD_of_field high 1 (by omega)
  have bit9 := getLsbD_of_field high 0 (by omega)
  simp only [decodeThumb, format, decodeFormat2_eq, bit10, bit9, rdF, rsF, xF]
  rfl

theorem decodeThumb_format78 {h : Half} {k : BitVec 7} {x rs rd : LowReg}
    (e : h = halfAt 9 k ||| halfAt 6 x ||| halfAt 3 rs ||| halfAt 0 rd)
    (hk : k.extractLsb' 2 5 = 10#5 ∨ k.extractLsb' 2 5 = 11#5) :
    decodeThumb h = .ok (format78Of (k.extractLsb' 0 3) x rs rd) := by
  obtain ⟨rdF, rsF, xF, high⟩ := eq_threeRegs_iff.1 e
  have format := extractLsb'_of_field high 2 5 (by omega)
  have kind := extractLsb'_of_field high 0 3 (by omega)
  rcases hk with hk | hk <;> rw [hk] at format <;>
  · simp only [decodeThumb, format, decodeFormat78_eq, kind, rdF, rsF, xF]
    rfl

theorem decodeThumb_format4 {h : Half} {k : BitVec 10} {rs rd : LowReg}
    (e : h = halfAt 6 k ||| halfAt 3 rs ||| halfAt 0 rd) (hk : k.extractLsb' 4 6 = 0b010000#6) :
    decodeThumb h = .ok (format4Of (k.extractLsb' 0 4) rs rd) := by
  obtain ⟨rdF, rsF, high⟩ := eq_twoRegs_iff.1 e
  have six := (extractLsb'_of_field high 4 6 (by omega)).trans hk
  have format := extractLsb'_of_field six 1 5 (by omega)
  have bit10 := getLsbD_of_field six 0 (by omega)
  have kind := extractLsb'_of_field high 0 4 (by omega)
  simp only [decodeThumb, format, bit10, decodeFormat4_eq, kind, rdF, rsF]
  rfl

theorem decodeThumb_format1617 {h : Half} {k : BitVec 8} {imm : BitVec 8} (e : h = halfAt 8 k ||| halfAt 0 imm)
    (hk : k.extractLsb' 3 5 = 26#5 ∨ k.extractLsb' 3 5 = 27#5) :
    decodeThumb h = .ok (format1617Of (k.extractLsb' 0 4) imm) := by
  obtain ⟨immF, high⟩ := eq_imm8_iff.1 e
  have format := extractLsb'_of_field high 3 5 (by omega)
  have kind := extractLsb'_of_field high 0 4 (by omega)
  rcases hk with hk | hk <;> rw [hk] at format <;>
  · simp only [decodeThumb, format, decodeFormat1617_eq, kind, immF]
    rfl

/-- The instructions of format 5 on registers (R118 item 4 aside). -/
theorem decodeThumb_format5 {h : Half} {d s : Reg} {k : BitVec 8}
    (e : h = halfAt 8 k ||| halfAt 7 (d.extractLsb' 3 1) ||| halfAt 3 s ||| halfAt 0 (d.extractLsb' 0 3))
    (hk : k.extractLsb' 2 6 = 0b010001#6) {F : Reg → Reg → Instr}
    (hF : ∀ g : Half, g.extractLsb' 8 2 = k.extractLsb' 0 2 →
      decodeFormat5 g = .ok (F (g.extractLsb' 7 1 ++ g.extractLsb' 0 3) (g.extractLsb' 3 4))) :
    decodeThumb h = .ok (F d s) := by
  obtain ⟨lowF, sF, topF, high⟩ := eq_highRegs_iff.1 e
  have six := (extractLsb'_of_field high 2 6 (by omega)).trans hk
  have format := extractLsb'_of_field six 1 5 (by omega)
  have bit10 := getLsbD_of_field six 0 (by omega)
  have dF : ∀ d : Reg, d.extractLsb' 3 1 ++ d.extractLsb' 0 3 = d := by decide
  have top := (extractLsb'_one_eq_iff h d 7 3).2 topF
  simp only [decodeThumb, format, bit10, hF h (extractLsb'_of_field high 0 2 (by omega)), top, lowF, dF, sF]
  rfl

theorem decode_encode_tBx (s : Reg) : decode (encode (.tBx s)) = .ok (.tBx s) := by
  obtain ⟨low, sF, high⟩ := (eq_encodeThumbBx_iff (k := 0b010001110#9) (s := s)).1 rfl
  have format := extractLsb'_of_field high 4 5 (by omega)
  have bit10 := getLsbD_of_field high 3 (by omega)
  have bit7 := getLsbD_of_field high 0 (by omega)
  have kind := extractLsb'_of_field high 1 2 (by omega)
  simp only [encode, decode, decodeThumb, format, bit10, decodeFormat5, kind, bit7, low, sF]
  rfl

/-- Whether a halfword is of the undefined space is a matter of its high byte (R118, 49 R351). -/
theorem undefinedHalf_eq (h : Half) : undefinedHalf h = undefinedHalf (halfAt 8 (h.extractLsb' 8 8)) := by
  have high : (halfAt 8 (h.extractLsb' 8 8)).toNat = h.toNat / 256 * 256 := by
    have := h.isLt
    simp only [halfAt, BitVec.toNat_shiftLeft, BitVec.toNat_setWidth, BitVec.extractLsb'_toNat,
      Nat.shiftRight_eq_div_pow, Nat.reducePow, Nat.shiftLeft_eq, Nat.mod_mul_mod]
    omega
  rw [Bool.eq_iff_iff, undefinedHalf, undefinedHalf, high]
  simp only [Bool.or_eq_true, Bool.and_eq_true, decide_eq_true_eq]
  omega

/-- The high byte of an undefined halfword: bits 15:11 are 11101, or bits 15:12 are 1011 (R118). -/
theorem undefinedHalf_format {h : Half} (hu : undefinedHalf h = true) :
    h.extractLsb' 11 5 = 29#5 ∨ h.extractLsb' 11 5 = 22#5 ∨ h.extractLsb' 11 5 = 23#5 := by
  have bytes : ∀ b : BitVec 8, undefinedHalf (halfAt 8 b) = true →
      b.extractLsb' 3 5 = 29#5 ∨ b.extractLsb' 3 5 = 22#5 ∨ b.extractLsb' 3 5 = 23#5 := by decide
  have five : h.extractLsb' 11 5 = (h.extractLsb' 8 8).extractLsb' 3 5 := extractLsb'_of_field rfl 3 5 (by omega)
  rw [five]
  exact bytes _ (by rwa [← undefinedHalf_eq])

theorem decode_encode_tUndefinedSpace {h : Half} (hu : undefinedHalf h = true) :
    decode (encode (.tUndefinedSpace h)) = .ok (.tUndefinedSpace h) := by
  rcases undefinedHalf_format hu with format | format | format
  · simp only [encode, decode, decodeThumb, format]
    rfl
  all_goals
    simp only [encode, decode, decodeThumb, format, decodeFormat1314, hu]
    rfl

/-- Format 13, none of whose halfwords is undefined. -/
theorem decodeThumb_format13 {h : Half} {k : BitVec 9} {off : BitVec 7} (e : h = halfAt 7 k ||| halfAt 0 off)
    (hk : k.extractLsb' 1 8 = 0b10110000#8) :
    decodeThumb h = .ok (if k.getLsbD 0 then .tSpDown off else .tSpUp off) := by
  obtain ⟨offF, high⟩ := eq_imm7_iff.1 e
  have byte := (extractLsb'_of_field high 1 8 (by omega)).trans hk
  have format := extractLsb'_of_field byte 3 5 (by omega)
  have bit10 := getLsbD_of_field byte 2 (by omega)
  have bit7 := getLsbD_of_field high 0 (by omega)
  have allocated : undefinedHalf h = false := by rw [undefinedHalf_eq, byte]; decide
  simp only [decodeThumb, format, decodeFormat1314, allocated, bit10, bit7, offF]
  rfl

/-- Format 14, none of whose halfwords is undefined. -/
theorem decodeThumb_format14 {h : Half} {k : BitVec 7} {b : Bool} {list : BitVec 8}
    (e : h = halfAt 9 k ||| halfAt 8 (bit b) ||| halfAt 0 list) (hk : k = 0b1011010#7 ∨ k = 0b1011110#7) :
    decodeThumb h = .ok (if k.getLsbD 2 then .tPop b list else .tPush b list) := by
  obtain ⟨listF, bF, high⟩ := eq_bitList_iff.1 e
  have byte := extractLsb'_join high ((extractLsb'_eq_bit_iff h 8 b).2 bF)
  have format := extractLsb'_of_field high 2 5 (by omega)
  have bit10 := getLsbD_of_field high 1 (by omega)
  have bit11 := getLsbD_of_field high 2 (by omega)
  have allocated : undefinedHalf h = false := by
    rw [undefinedHalf_eq, byte]
    rcases hk with rfl | rfl <;> cases b <;> decide
  rcases hk with rfl | rfl <;>
  · simp only [decodeThumb, format, decodeFormat1314, allocated, bit10, bit11, bF, listF]
    rfl

/-- The code of LSL by an immediate, whose bits 15:11 are zeros, in the format of its neighbours. -/
theorem encode_tLslImm (n : BitVec 5) (rs rd : LowReg) :
    encode (.tLslImm n rs rd) = .thumb (halfAt 11 0#5 ||| halfAt 6 n ||| halfAt 3 rs ||| halfAt 0 rd) := by
  have zeros : halfAt 11 0#5 = 0#16 := by decide
  rw [zeros, BitVec.zero_or]
  rfl

theorem decode_encode_thumb {i : Instr} (hw : i.wellFormed = true) (hi : Machine.thumbSet i = true) :
    decode (encode i) = .ok i := by
  cases i with
  | tLslImm =>
    rw [encode_tLslImm]
    exact decodeThumb_offset5 fun h high => by rw [decodeThumb, high]; rfl
  | tLsrImm | tAsrImm | tStrImm | tLdrImm | tStrbImm | tLdrbImm | tStrhImm | tLdrhImm =>
    exact decodeThumb_offset5 fun h high => by rw [decodeThumb, high]; rfl
  | tAddReg | tSubReg | tAddImm3 | tSubImm3 => exact decodeThumb_format2 rfl (by decide)
  | tMovImm8 | tCmpImm8 | tAddImm8 | tSubImm8 | tLdrPc | tStrSp | tLdrSp | tAddPc | tAddSp | tStmia | tLdmia =>
    exact decodeThumb_regImm8 fun h high => by rw [decodeThumb, high]; rfl
  | tAnd | tEor | tLslReg | tLsrReg | tAsrReg | tAdc | tSbc | tRorReg | tTst | tNeg | tCmp | tCmn | tOrr | tMul | tBic
  | tMvn => exact decodeThumb_format4 rfl (by decide)
  | tAddHi | tCmpHi | tMovHi => exact decodeThumb_format5 rfl (by decide) fun g kind => by rw [decodeFormat5, kind]; rfl
  | tBx => exact decode_encode_tBx _
  | tStrReg | tStrhReg | tStrbReg | tLdsbReg => exact decodeThumb_format78 rfl (.inl (by decide))
  | tLdrReg | tLdrhReg | tLdrbReg | tLdshReg => exact decodeThumb_format78 rfl (.inr (by decide))
  | tSpUp | tSpDown => exact decodeThumb_format13 rfl (by decide)
  | tPush => exact decodeThumb_format14 rfl (.inl rfl)
  | tPop => exact decodeThumb_format14 rfl (.inr rfl)
  | tBeq | tBne | tBcs | tBcc | tBmi | tBpl | tBvs | tBvc => exact decodeThumb_format1617 rfl (.inl (by decide))
  | tBhi | tBls | tBge | tBlt | tBgt | tBle | tUndefined | tSwi => exact decodeThumb_format1617 rfl (.inr (by decide))
  | tB | tBlPrefix | tBlSuffix => exact decodeThumb_imm11 fun h high => by rw [decodeThumb, high]; rfl
  | tUndefinedSpace => exact decode_encode_tUndefinedSpace hw
  | _ => cases hi

/-- Settles O1: each format of either instruction set is read back. -/
theorem decodeEncodeRoundTrip : Obligations.DecodeEncodeRoundTrip := by
  unfold Obligations.DecodeEncodeRoundTrip
  intro i hw
  cases hi : Machine.thumbSet i with
  | false => exact decode_encode_arm hi
  | true => exact decode_encode_thumb hw hi

end Sys2Proof
end

section
/-! SUPPORT. What the decoder accepts encodes back (30_encoding.md R91 to R118): each branch of the decoder has tested
all the bits of its format that are no field of the instruction. -/

namespace Sys2Proof

/-! ## Answers that encode back -/

/-- If the answer `r` of a decoder is an instruction, it is well formed and `x` is its code. -/
structure EncodesBack (x : Code) (r : Except DecodeError Instr) : Prop where
  of_ok : ∀ i, r = .ok i → encode i = x ∧ i.wellFormed = true

theorem EncodesBack.ok {x : Code} {i : Instr} (h : encode i = x) (hw : i.wellFormed = true) : EncodesBack x (.ok i) :=
  ⟨by rintro _ ⟨⟩; exact ⟨h, hw⟩⟩

theorem EncodesBack.error (x : Code) (e : DecodeError) : EncodesBack x (.error e) := ⟨by rintro _ ⟨⟩⟩

theorem EncodesBack.ite {x : Code} {p : Prop} [Decidable p] {r q : Except DecodeError Instr}
    (hr : p → EncodesBack x r) (hq : ¬ p → EncodesBack x q) : EncodesBack x (if p then r else q) := by
  split
  · exact hr ‹_›
  · exact hq ‹_›

theorem wellFormed_of_encode_arm {i : Instr} {w : Word} (h : encode i = .arm w) : i.wellFormed = true := by
  cases i with
  | tUndefinedSpace u => cases h
  | _ => rfl

/-- An ARM instruction whose format has the fields of the word. -/
theorem EncodesBack.arm {w v : Word} {i : Instr} (h : encode i = .arm v) (e : w = v) : EncodesBack (.arm w) (.ok i) :=
  .ok (h.trans (congrArg _ e.symm)) (wellFormed_of_encode_arm h)

/-! ## The format of each form of instruction -/

theorem encode_dpImm {op : AluOp} {s : Bool} {rn rd : Reg} (h : dpFields op s rn rd) (c : Cond) (rot : BitVec 4)
    (imm : BitVec 8) : encode (Instr.dpImm op c s rn rd rot imm) = .arm (encodeDpImm op c s rn rd rot imm) := by
  cases op with
  | tst | teq | cmp | cmn => obtain ⟨rfl, rfl⟩ := h.1 rfl; rfl
  | mov | mvn => obtain rfl := h.2 rfl; rfl
  | _ => rfl

theorem encode_dpShImm {op : AluOp} {s : Bool} {rn rd : Reg} (h : dpFields op s rn rd) (c : Cond) (n : BitVec 5)
    (sh : Shift) (rm : Reg) :
    encode (Instr.dpShImm op c s rn rd n sh rm) = .arm (encodeDpShImm op c s rn rd n sh rm) := by
  cases op with
  | tst | teq | cmp | cmn => obtain ⟨rfl, rfl⟩ := h.1 rfl; rfl
  | mov | mvn => obtain rfl := h.2 rfl; rfl
  | _ => rfl

theorem encode_dpShReg {op : AluOp} {s : Bool} {rn rd : Reg} (h : dpFields op s rn rd) (c : Cond) (rs : Reg)
    (sh : Shift) (rm : Reg) :
    encode (Instr.dpShReg op c s rn rd rs sh rm) = .arm (encodeDpShReg op c s rn rd rs sh rm) := by
  cases op with
  | tst | teq | cmp | cmn => obtain ⟨rfl, rfl⟩ := h.1 rfl; rfl
  | mov | mvn => obtain rfl := h.2 rfl; rfl
  | _ => rfl

theorem encode_transferImmOf (c : Cond) (p u byte wb load : Bool) (rn rd : Reg) (off : BitVec 12) :
    encode (transferImmOf c p u byte wb load rn rd off) = .arm (encodeTransferImm c p u byte wb load rn rd off) := by
  cases p <;> cases wb <;> cases load <;> cases byte <;> rfl

theorem encode_transferRegOf (c : Cond) (p u byte wb load : Bool) (rn rd : Reg) (n : BitVec 5) (sh : Shift) (rm : Reg) :
    encode (transferRegOf c p u byte wb load rn rd n sh rm) =
      .arm (encodeTransferReg c p u byte wb load rn rd n sh rm) := by
  cases p <;> cases wb <;> cases load <;> cases byte <;> rfl

/-- A list with r15 is its low fifteen bits and bit 15. -/
theorem list_of_pc {list : BitVec 16} (pc : list.getLsbD 15 = true) :
    (list.extractLsb' 0 15).setWidth 16 ||| 0x8000#16 = list := by
  have top : (0x8000#16).extractLsb' 0 15 = 0#15 := by decide
  refine (eq_iff_fieldsAgree [15, 1] (by rfl)).2 ⟨?_, (extractLsb'_one_eq_iff ..).2 (by simp [pc]), trivial⟩
  rw [extractLsb'_union, extractLsb'_setWidth_list, top, BitVec.or_zero]

/-- A list without r15 is its low fifteen bits. -/
theorem list_of_not_pc {list : BitVec 16} (pc : list.getLsbD 15 = false) :
    (list.extractLsb' 0 15).setWidth 16 = list :=
  (eq_iff_fieldsAgree [15, 1] (by rfl)).2
    ⟨extractLsb'_setWidth_list _, (extractLsb'_one_eq_iff ..).2 ((by simp : _ = false).trans pc.symm), trivial⟩

theorem encode_blockOf (c : Cond) (p u s wb load : Bool) (rn : Reg) (list : BitVec 16) :
    encode (blockOf c p u s wb load rn list) = .arm (encodeBlock c p u s wb load rn list) := by
  cases load with
  | false => cases s <;> rfl
  | true =>
    cases s with
    | false => rfl
    | true =>
      cases pc : list.getLsbD 15 with
      | false =>
        conv => rhs; rw [← list_of_not_pc pc]
        simp only [blockOf, pc]
        rfl
      | true =>
        conv => rhs; rw [← list_of_pc pc]
        simp only [blockOf, pc]
        rfl

/-! ## ARM -/

section
variable {w : Word} {c : Cond}

theorem encodesBack_dpImm (cond : w.extractLsb' 28 4 = c.bits) (cls : w.extractLsb' 25 3 = 1#3)
    (control : controlSpace w = false) : EncodesBack (.arm w) (decodeDpImm c w) :=
  .ite (fun zero => .arm (encode_dpImm ((dpFields_iff w).2 ⟨control, zero⟩) ..)
    (eq_encodeDpImm_iff.2 ⟨rfl, rfl, rfl, rfl, rfl, (bits_aluOpOfBits _).symm, cls, cond⟩)) fun _ => .error ..

theorem encodesBack_dpShImm (cond : w.extractLsb' 28 4 = c.bits) (cls : w.extractLsb' 25 3 = 0#3)
    (bit4 : w.getLsbD 4 = false) (control : controlSpace w = false) : EncodesBack (.arm w) (decodeDpShImm c w) :=
  .ite (fun zero => .arm (encode_dpShImm ((dpFields_iff w).2 ⟨control, zero⟩) ..)
    (eq_encodeDpShImm_iff.2 ⟨rfl, bit4, (bits_shiftOfBits _).symm, rfl, rfl, rfl, rfl, (bits_aluOpOfBits _).symm, cls,
      cond⟩)) fun _ => .error ..

theorem encodesBack_dpShReg (cond : w.extractLsb' 28 4 = c.bits) (cls : w.extractLsb' 25 3 = 0#3)
    (bit4 : w.getLsbD 4 = true) (bit7 : w.getLsbD 7 = false) (control : controlSpace w = false) :
    EncodesBack (.arm w) (decodeDpShReg c w) :=
  .ite (fun zero => .arm (encode_dpShReg ((dpFields_iff w).2 ⟨control, zero⟩) ..)
    (eq_encodeDpShReg_iff.2 ⟨rfl, bit4, (bits_shiftOfBits _).symm, bit7, rfl, rfl, rfl, rfl,
      (bits_aluOpOfBits _).symm, cls, cond⟩)) fun _ => .error ..

theorem encodesBack_status (cond : w.extractLsb' 28 4 = c.bits) (cls : w.extractLsb' 25 3 = 0#3)
    (control : controlSpace w = true) : EncodesBack (.arm w) (decodeStatus c w) := by
  obtain ⟨ctl, bit20⟩ := (controlSpace_iff w).1 control
  refine .ite (fun bit21 => .ite (fun fixed => .arm rfl ?_) fun _ => .error ..)
    fun bit21 => .ite (fun fixed => .arm rfl ?_) fun _ => .error ..
  all_goals
    simp only [Bool.and_eq_true, beq_iff_eq] at fixed
    obtain ⟨sbo, sbz⟩ := fixed
  · exact eq_msrReg_iff.2 ⟨rfl, sbz, sbo, rfl, bit20, bit21, rfl, ctl, cls, cond⟩
  · exact eq_mrs_iff.2 ⟨sbz, rfl, sbo, bit20, eq_false_of_ne_true bit21, rfl, ctl, cls, cond⟩

theorem encodesBack_statusImm (cond : w.extractLsb' 28 4 = c.bits) (cls : w.extractLsb' 25 3 = 1#3)
    (control : controlSpace w = true) : EncodesBack (.arm w) (decodeStatusImm c w) := by
  obtain ⟨ctl, bit20⟩ := (controlSpace_iff w).1 control
  refine .ite (fun bit21 => .ite (fun sbo => .arm rfl ?_) fun _ => .error ..) fun _ => .error ..
  exact eq_msrImm_iff.2 ⟨rfl, rfl, eq_of_beq sbo, rfl, bit20, bit21, rfl, ctl, cls, cond⟩

theorem encodesBack_bx (cond : w.extractLsb' 28 4 = c.bits) : EncodesBack (.arm w) (decodeBx c w) := by
  refine .ite (fun fixed => .ite (fun sbo => .arm rfl ?_) fun _ => .error ..) fun _ => .error ..
  simp only [Bool.and_eq_true, beq_iff_eq] at fixed
  obtain ⟨high, low⟩ := fixed
  exact eq_bx_iff.2 ⟨rfl, low, eq_of_beq sbo, high, cond⟩

theorem encodesBack_swap (cond : w.extractLsb' 28 4 = c.bits) (cls : w.extractLsb' 25 3 = 0#3)
    (bit4 : w.getLsbD 4 = true) (bit7 : w.getLsbD 7 = true) (typ : w.extractLsb' 5 2 = 0#2)
    (bit24 : w.getLsbD 24 = true) : EncodesBack (.arm w) (decodeSwap c w) := by
  refine .ite (fun fixed => .ite (fun sbz => ?_) fun _ => .error ..) fun _ => .error ..
  simp only [Bool.and_eq_true, beq_iff_eq, extractLsb'_eq_zero_iff] at fixed
  obtain ⟨bit23, low⟩ := fixed
  have sbz := eq_of_beq sbz
  exact .ite
    (fun bit22 => .arm rfl (eq_swap_iff.2
      ⟨rfl, bit4, typ, bit7, sbz, rfl, rfl, low, bit22, bit23, bit24, cls, cond⟩))
    fun bit22 => .arm rfl (eq_swap_iff.2
      ⟨rfl, bit4, typ, bit7, sbz, rfl, rfl, low, eq_false_of_ne_true bit22, bit23, bit24, cls, cond⟩)

theorem encodesBack_multiply (cond : w.extractLsb' 28 4 = c.bits) (cls : w.extractLsb' 25 3 = 0#3)
    (bit4 : w.getLsbD 4 = true) (bit7 : w.getLsbD 7 = true) (typ : w.extractLsb' 5 2 = 0#2)
    (bit24 : w.getLsbD 24 = false) : EncodesBack (.arm w) (decodeMultiply c w) := by
  have reads : ∀ {kind : BitVec 3} {a : Bool} {lo : Reg}, w.extractLsb' 12 4 = lo → kind.getLsbD 2 = false →
      (w.extractLsb' 21 3).toNat = (kind.extractLsb' 0 2 ++ bit a).toNat →
      w = encodeMultiply c kind a (w.getLsbD 20) (w.extractLsb' 16 4) lo (w.extractLsb' 8 4) (w.extractLsb' 0 4) :=
    fun loF top kindF => eq_encodeMultiply_iff.2
      ⟨rfl, bit4, typ, bit7, rfl, loF, rfl, rfl, BitVec.eq_of_toNat_eq kindF, bit24.trans top.symm, cls, cond⟩
  unfold decodeMultiply
  simp only
  split
  case h_1 kind => exact .ite (fun sbz => .arm rfl (reads (eq_of_beq sbz) rfl kind)) fun _ => .error ..
  case h_2 kind | h_3 kind | h_4 kind | h_5 kind | h_6 kind => exact .arm rfl (reads rfl rfl kind)
  case h_7 => exact .error ..

theorem encodesBack_half (cond : w.extractLsb' 28 4 = c.bits) (cls : w.extractLsb' 25 3 = 0#3)
    (bit4 : w.getLsbD 4 = true) (bit7 : w.getLsbD 7 = true) (typ : w.extractLsb' 5 2 ≠ 0#2) :
    EncodesBack (.arm w) (decodeHalf c w) := by
  have reads : ∀ {imm load : Bool} {high low : Reg} {sh : BitVec 2}, w.extractLsb' 8 4 = high →
      w.extractLsb' 0 4 = low → w.extractLsb' 5 2 = sh → w.getLsbD 20 = load → w.getLsbD 22 = imm →
      w = encodeHalf c (w.getLsbD 24) (w.getLsbD 23) imm (w.getLsbD 21) load (w.extractLsb' 16 4)
        (w.extractLsb' 12 4) high sh low :=
    fun high low sh load imm => eq_encodeHalf_iff.2
      ⟨low, bit4, sh, bit7, high, rfl, rfl, load, rfl, imm, rfl, rfl, cls, cond⟩
  have three : (w.extractLsb' 5 2).toNat ≠ 1 → (w.extractLsb' 5 2).toNat ≠ 2 → w.extractLsb' 5 2 = 3#2 := by
    revert typ
    generalize w.extractLsb' 5 2 = sh
    revert sh
    decide
  have high := (BitVec.extractLsb'_append_eq_left (a := w.extractLsb' 8 4) (b := w.extractLsb' 0 4)).symm
  have low := (BitVec.extractLsb'_append_eq_right (a := w.extractLsb' 8 4) (b := w.extractLsb' 0 4)).symm
  unfold decodeHalf
  refine .ite (fun _ => .error ..) fun allocated => ?_
  have load : (w.extractLsb' 5 2).toNat ≠ 1 → w.getLsbD 20 = true := fun ne1 =>
    by_contra fun store => allocated (by rw [eq_false_of_ne_true store, bne_iff_ne.2 ne1]; rfl)
  refine .ite (fun imm => ?_) fun imm => .ite (fun sbz => ?_) fun _ => .error ..
  · split
    case h_1 sh =>
      have sh := BitVec.eq_of_toNat_eq (y := 1#2) sh
      exact .ite (fun load => .arm rfl (reads high low sh load imm)) fun load =>
        .arm rfl (reads high low sh (eq_false_of_ne_true load) imm)
    case h_2 sh => exact .arm rfl (reads high low (BitVec.eq_of_toNat_eq (y := 2#2) sh) (load (by omega)) imm)
    case h_3 ne1 ne2 => exact .arm rfl (reads high low (three ne1 ne2) (load ne1) imm)
  · have imm := eq_false_of_ne_true imm
    have sbz := eq_of_beq sbz
    split
    case h_1 sh =>
      have sh := BitVec.eq_of_toNat_eq (y := 1#2) sh
      exact .ite (fun load => .arm rfl (reads sbz rfl sh load imm)) fun load =>
        .arm rfl (reads sbz rfl sh (eq_false_of_ne_true load) imm)
    case h_2 sh => exact .arm rfl (reads sbz rfl (BitVec.eq_of_toNat_eq (y := 2#2) sh) (load (by omega)) imm)
    case h_3 ne1 ne2 => exact .arm rfl (reads sbz rfl (three ne1 ne2) (load ne1) imm)

theorem encodesBack_class0 (cond : w.extractLsb' 28 4 = c.bits) (cls : w.extractLsb' 25 3 = 0#3) :
    EncodesBack (.arm w) (decodeClass0 c w) := by
  refine .ite (fun bit4 => .ite (fun bit7 => .ite (fun typ => ?_) fun typ => ?_) fun bit7 => ?_) fun bit4 => ?_
  · have typ := eq_of_beq typ
    exact .ite (encodesBack_swap cond cls bit4 bit7 typ) fun bit24 =>
      encodesBack_multiply cond cls bit4 bit7 typ (eq_false_of_ne_true bit24)
  · exact encodesBack_half cond cls bit4 bit7 (by simpa using typ)
  · exact .ite (fun _ => encodesBack_bx cond) fun control =>
      encodesBack_dpShReg cond cls bit4 (eq_false_of_ne_true bit7) (eq_false_of_ne_true control)
  · exact .ite (encodesBack_status cond cls) fun control =>
      encodesBack_dpShImm cond cls (eq_false_of_ne_true bit4) (eq_false_of_ne_true control)

theorem encodesBack_coprocTransfer (cond : w.extractLsb' 28 4 = c.bits) (cls : w.extractLsb' 25 3 = 6#3) :
    EncodesBack (.arm w) (.ok (decodeCoprocTransfer c w)) := by
  unfold decodeCoprocTransfer
  simp only
  split
  case isTrue load =>
    exact .arm (encode_ldc ..) (eq_encodeCoprocTransfer_iff.2 ⟨rfl, rfl, rfl, rfl, load, rfl, rfl, rfl, rfl, cls, cond⟩)
  case isFalse store =>
    exact .arm (encode_stc ..) (eq_encodeCoprocTransfer_iff.2
      ⟨rfl, rfl, rfl, rfl, eq_false_of_ne_true store, rfl, rfl, rfl, rfl, cls, cond⟩)

theorem encodesBack_coprocOrSwi (cond : w.extractLsb' 28 4 = c.bits) (cls : w.extractLsb' 25 3 = 7#3) :
    EncodesBack (.arm w) (.ok (decodeCoprocOrSwi c w)) := by
  unfold decodeCoprocOrSwi
  simp only
  split
  case isTrue bit24 => exact .arm rfl (eq_offset24_iff.2 ⟨rfl, bit24, cls, cond⟩)
  case isFalse bit24 =>
    have bit24 := eq_false_of_ne_true bit24
    split
    case isTrue bit4 =>
      split
      case isTrue load =>
        exact .arm (encode_mrc ..) (eq_encodeCoprocRegister_iff.2
          ⟨rfl, bit4, rfl, rfl, rfl, rfl, load, rfl, bit24, cls, cond⟩)
      case isFalse store =>
        exact .arm (encode_mcr ..) (eq_encodeCoprocRegister_iff.2
          ⟨rfl, bit4, rfl, rfl, rfl, rfl, eq_false_of_ne_true store, rfl, bit24, cls, cond⟩)
    case isFalse bit4 =>
      exact .arm rfl (eq_cdp_iff.2
        ⟨rfl, eq_false_of_ne_true bit4, rfl, rfl, rfl, rfl, rfl, bit24, cls, cond⟩)

theorem encodesBack_tree (cond : w.extractLsb' 28 4 = c.bits) : EncodesBack (.arm w) (decodeTree c w) := by
  have class_of : ∀ {k : BitVec 3}, (w.extractLsb' 25 3).toNat = k.toNat → w.extractLsb' 25 3 = k :=
    BitVec.eq_of_toNat_eq
  unfold decodeTree
  split
  case h_1 cls => exact encodesBack_class0 cond (class_of cls)
  case h_2 cls =>
    exact .ite (encodesBack_statusImm cond (class_of cls)) fun control =>
      encodesBack_dpImm cond (class_of cls) (eq_false_of_ne_true control)
  case h_3 cls =>
    rw [decodeTransferImm_eq]
    exact .arm (encode_transferImmOf ..)
      (eq_encodeTransferImm_iff.2 ⟨rfl, rfl, rfl, rfl, rfl, rfl, rfl, rfl, class_of cls, cond⟩)
  case h_4 cls =>
    refine .ite (fun bit4 => .arm rfl (eq_undefined_iff.2 ⟨rfl, bit4, rfl, class_of cls, cond⟩)) fun bit4 => ?_
    rw [decodeTransferReg_eq]
    exact .arm (encode_transferRegOf ..) (eq_encodeTransferReg_iff.2
      ⟨rfl, eq_false_of_ne_true bit4, (bits_shiftOfBits _).symm, rfl, rfl, rfl, rfl, rfl, rfl, rfl, rfl, class_of cls,
        cond⟩)
  case h_5 cls =>
    rw [decodeBlock_eq]
    exact .arm (encode_blockOf ..) (eq_encodeBlock_iff.2 ⟨rfl, rfl, rfl, rfl, rfl, rfl, rfl, class_of cls, cond⟩)
  case h_6 cls =>
    exact .ite (fun link => .arm rfl (eq_offset24_iff.2 ⟨rfl, link, class_of cls, cond⟩)) fun link =>
      .arm rfl (eq_offset24_iff.2 ⟨rfl, eq_false_of_ne_true link, class_of cls, cond⟩)
  case h_7 cls => exact encodesBack_coprocTransfer cond (class_of cls)
  case h_8 =>
    have bound := (w.extractLsb' 25 3).isLt
    have cls : (w.extractLsb' 25 3).toNat = 7 := by simp only [imp_false] at *; omega
    exact encodesBack_coprocOrSwi cond (class_of (k := 7#3) cls)

end

theorem encodesBack_arm (w : Word) : EncodesBack (.arm w) (decodeArm w) := by
  unfold decodeArm
  split
  case h_1 c hc => exact encodesBack_tree (bits_of_condOfBits hc).symm
  case h_2 => exact .error ..

end Sys2Proof
end

section
/-! SUPPORT. What the Thumb decoder accepts encodes back (30_encoding.md R110 to R118). -/

namespace Sys2Proof

/-- A Thumb instruction whose format has the fields of the halfword. -/
theorem EncodesBack.thumb {h v : Half} {i : Instr} (he : encode i = .thumb v) (e : h = v) (hw : i.wellFormed = true) :
    EncodesBack (.thumb h) (.ok i) := .ok (he.trans (congrArg _ e.symm)) hw

/-- A field is known by its two parts. -/
theorem extractLsb'_of_parts {w : Nat} {x : BitVec w} {lo : Nat} (m n : Nat) {k : BitVec (m + n)}
    (high : x.extractLsb' (lo + n) m = k.extractLsb' n m) (low : x.extractLsb' lo n = k.extractLsb' 0 n) :
    x.extractLsb' lo (m + n) = k :=
  (extractLsb'_join high low).trans (by
    refine (eq_iff_fieldsAgree [n, m] (by simp [Nat.add_comm])).2 ⟨BitVec.extractLsb'_append_eq_right, ?_, trivial⟩
    rw [Nat.zero_add]
    exact BitVec.extractLsb'_append_eq_left)

section
variable {h : Half}

theorem encodesBack_format2 (format : h.extractLsb' 11 5 = 3#5) : EncodesBack (.thumb h) (.ok (decodeFormat2 h)) := by
  have reads : ∀ {k : BitVec 7}, k.extractLsb' 2 5 = 3#5 → h.getLsbD 10 = (k.extractLsb' 0 2).getLsbD 1 →
      h.getLsbD 9 = (k.extractLsb' 0 2).getLsbD 0 → h = halfAt 9 k ||| halfAt 6 (h.extractLsb' 6 3) |||
        halfAt 3 (h.extractLsb' 3 3) ||| halfAt 0 (h.extractLsb' 0 3) := fun high bit10 bit9 =>
    eq_threeRegs_iff.2 ⟨rfl, rfl, rfl, extractLsb'_of_parts 5 2 (format.trans high.symm)
      (extractLsb'_of_parts 1 1 ((extractLsb'_one_eq_iff ..).2 bit10) ((extractLsb'_one_eq_iff ..).2 bit9))⟩
  unfold decodeFormat2
  simp only
  split
  case isTrue bit10 =>
    split
    case isTrue bit9 => exact .thumb rfl (reads rfl bit10 bit9) rfl
    case isFalse bit9 => exact .thumb rfl (reads rfl bit10 (eq_false_of_ne_true bit9)) rfl
  case isFalse bit10 =>
    have bit10 := eq_false_of_ne_true bit10
    split
    case isTrue bit9 => exact .thumb rfl (reads rfl bit10 bit9) rfl
    case isFalse bit9 => exact .thumb rfl (reads rfl bit10 (eq_false_of_ne_true bit9)) rfl

theorem encodesBack_format4 (six : h.extractLsb' 10 6 = 0b010000#6) :
    EncodesBack (.thumb h) (.ok (decodeFormat4 h)) := by
  have reads : ∀ {k : BitVec 10}, k.extractLsb' 4 6 = 0b010000#6 →
      (h.extractLsb' 6 4).toNat = (k.extractLsb' 0 4).toNat →
      h = halfAt 6 k ||| halfAt 3 (h.extractLsb' 3 3) ||| halfAt 0 (h.extractLsb' 0 3) := fun high kind =>
    eq_twoRegs_iff.2
      ⟨rfl, rfl, extractLsb'_of_parts 6 4 (six.trans high.symm) (BitVec.eq_of_toNat_eq kind)⟩
  unfold decodeFormat4
  simp only
  split
  case h_1 kind | h_2 kind | h_3 kind | h_4 kind | h_5 kind | h_6 kind | h_7 kind | h_8 kind | h_9 kind | h_10 kind
      | h_11 kind | h_12 kind | h_13 kind | h_14 kind | h_15 kind => exact .thumb rfl (reads rfl kind) rfl
  case h_16 =>
    have bound := (h.extractLsb' 6 4).isLt
    have kind : (h.extractLsb' 6 4).toNat = 15 := by simp only [imp_false] at *; omega
    exact .thumb rfl (reads rfl kind) rfl

theorem encodesBack_format5 (six : h.extractLsb' 10 6 = 0b010001#6) : EncodesBack (.thumb h) (decodeFormat5 h) := by
  have join : ∀ {k : BitVec 8}, k.extractLsb' 2 6 = 0b010001#6 →
      (h.extractLsb' 8 2).toNat = (k.extractLsb' 0 2).toNat → h.extractLsb' 8 8 = k := fun high kind =>
    extractLsb'_of_parts 6 2 (six.trans high.symm) (BitVec.eq_of_toNat_eq kind)
  have reads : ∀ {k : BitVec 8}, k.extractLsb' 2 6 = 0b010001#6 →
      (h.extractLsb' 8 2).toNat = (k.extractLsb' 0 2).toNat →
      h = halfAt 8 k ||| halfAt 7 ((h.extractLsb' 7 1 ++ h.extractLsb' 0 3).extractLsb' 3 1) |||
        halfAt 3 (h.extractLsb' 3 4) ||| halfAt 0 ((h.extractLsb' 7 1 ++ h.extractLsb' 0 3).extractLsb' 0 3) :=
    fun high kind => eq_highRegs_iff.2 ⟨BitVec.extractLsb'_append_eq_right.symm, rfl,
      (extractLsb'_one_eq_iff ..).1 BitVec.extractLsb'_append_eq_left.symm, join high kind⟩
  unfold decodeFormat5
  simp only
  split
  case h_1 kind | h_2 kind | h_3 kind => exact .thumb rfl (reads rfl kind) rfl
  case h_4 =>
    have bound := (h.extractLsb' 8 2).isLt
    have kind : (h.extractLsb' 8 2).toNat = 3 := by simp only [imp_false] at *; omega
    refine .ite (fun _ => .error ..) fun fixed => ?_
    simp only [Bool.or_eq_true, bne_iff_ne, not_or, Bool.not_eq_true, not_not] at fixed
    obtain ⟨bit7, low⟩ := fixed
    exact .thumb rfl (eq_encodeThumbBx_iff.2 ⟨low, rfl, extractLsb'_of_parts 8 1 (join (k := 0b01000111#8) rfl kind)
      ((extractLsb'_eq_zero_iff ..).2 bit7)⟩) rfl

theorem encodesBack_format78 (four : h.extractLsb' 12 4 = 0b0101#4) :
    EncodesBack (.thumb h) (.ok (decodeFormat78 h)) := by
  have reads : ∀ {k : BitVec 7}, k.extractLsb' 3 4 = 0b0101#4 →
      (h.extractLsb' 9 3).toNat = (k.extractLsb' 0 3).toNat → h = halfAt 9 k ||| halfAt 6 (h.extractLsb' 6 3) |||
        halfAt 3 (h.extractLsb' 3 3) ||| halfAt 0 (h.extractLsb' 0 3) := fun high kind =>
    eq_threeRegs_iff.2
      ⟨rfl, rfl, rfl, extractLsb'_of_parts 4 3 (four.trans high.symm) (BitVec.eq_of_toNat_eq kind)⟩
  unfold decodeFormat78
  simp only
  split
  case h_1 kind | h_2 kind | h_3 kind | h_4 kind | h_5 kind | h_6 kind | h_7 kind =>
    exact .thumb rfl (reads rfl kind) rfl
  case h_8 =>
    have bound := (h.extractLsb' 9 3).isLt
    have kind : (h.extractLsb' 9 3).toNat = 7 := by simp only [imp_false] at *; omega
    exact .thumb rfl (reads rfl kind) rfl

theorem encodesBack_format1617 (four : h.extractLsb' 12 4 = 0b1101#4) :
    EncodesBack (.thumb h) (.ok (decodeFormat1617 h)) := by
  have reads : ∀ {k : BitVec 8}, k.extractLsb' 4 4 = 0b1101#4 →
      (h.extractLsb' 8 4).toNat = (k.extractLsb' 0 4).toNat → h = halfAt 8 k ||| halfAt 0 (h.extractLsb' 0 8) :=
    fun high kind => eq_imm8_iff.2
      ⟨rfl, extractLsb'_of_parts 4 4 (four.trans high.symm) (BitVec.eq_of_toNat_eq kind)⟩
  unfold decodeFormat1617
  simp only
  split
  case h_1 kind | h_2 kind | h_3 kind | h_4 kind | h_5 kind | h_6 kind | h_7 kind | h_8 kind | h_9 kind | h_10 kind
      | h_11 kind | h_12 kind | h_13 kind | h_14 kind | h_15 kind => exact .thumb rfl (reads rfl kind) rfl
  case h_16 =>
    have bound := (h.extractLsb' 8 4).isLt
    have kind : (h.extractLsb' 8 4).toNat = 15 := by simp only [imp_false] at *; omega
    exact .thumb rfl (reads rfl kind) rfl

/-- The high bytes 0xB0, 0xB4, 0xB5, 0xBC and 0xBD are those of 1011 xxxx that are not undefined (R118). -/
theorem encodesBack_format1314 (four : h.extractLsb' 12 4 = 0b1011#4) :
    EncodesBack (.thumb h) (.ok (decodeFormat1314 h)) := by
  have allocated : ∀ b : BitVec 8, b.extractLsb' 4 4 = 0b1011#4 → undefinedHalf (halfAt 8 b) = false →
      b.extractLsb' 1 7 = (if b.getLsbD 2 then if b.getLsbD 3 then 0b1011110#7 else 0b1011010#7 else 0b1011000#7) ∧
      (b.getLsbD 2 = false → b.getLsbD 0 = false) := by decide
  unfold decodeFormat1314
  split
  case isTrue undef => exact .thumb rfl rfl undef
  case isFalse undef =>
    obtain ⟨byte, hb⟩ : ∃ b, h.extractLsb' 8 8 = b := ⟨_, rfl⟩
    have defined : undefinedHalf (halfAt 8 byte) = false := by
      rw [← hb, ← undefinedHalf_eq]
      exact eq_false_of_ne_true undef
    obtain ⟨seven, bit8⟩ := allocated byte ((extractLsb'_of_field hb 4 4 (by omega)).symm.trans four) defined
    rw [← getLsbD_of_field hb 2 (by omega), ← getLsbD_of_field hb 3 (by omega),
      ← extractLsb'_of_field hb 1 7 (by omega)] at seven
    rw [← getLsbD_of_field hb 2 (by omega), ← getLsbD_of_field hb 0 (by omega)] at bit8
    split
    case isTrue bit10 =>
      rw [if_pos bit10] at seven
      split
      case isTrue bit11 => exact .thumb rfl (eq_bitList_iff.2 ⟨rfl, rfl, seven.trans (if_pos bit11)⟩) rfl
      case isFalse bit11 => exact .thumb rfl (eq_bitList_iff.2 ⟨rfl, rfl, seven.trans (if_neg bit11)⟩) rfl
    case isFalse bit10 =>
      have eight : h.extractLsb' 8 8 = 0b10110000#8 := extractLsb'_of_parts 7 1 (seven.trans (if_neg bit10))
        ((extractLsb'_eq_zero_iff ..).2 (bit8 (eq_false_of_ne_true bit10)))
      split
      case isTrue bit7 =>
        exact .thumb rfl (eq_imm7_iff.2 ⟨rfl, extractLsb'_of_parts 8 1 eight ((extractLsb'_eq_one_iff ..).2 bit7)⟩) rfl
      case isFalse bit7 =>
        exact .thumb rfl (eq_imm7_iff.2
          ⟨rfl, extractLsb'_of_parts 8 1 eight ((extractLsb'_eq_zero_iff ..).2 (eq_false_of_ne_true bit7))⟩) rfl

theorem undefinedHalf_of_format (format : h.extractLsb' 11 5 = 29#5) : undefinedHalf h = true := by
  have bytes : ∀ b : BitVec 8, b.extractLsb' 3 5 = 29#5 → undefinedHalf (halfAt 8 b) = true := by decide
  rw [undefinedHalf_eq]
  exact bytes _ ((extractLsb'_of_field (y := h.extractLsb' 8 8) rfl 3 5 (by omega)).symm.trans format)

end

theorem encodesBack_thumb (h : Half) : EncodesBack (.thumb h) (decodeThumb h) := by
  have format_of : ∀ {k : BitVec 5}, (h.extractLsb' 11 5).toNat = k.toNat → h.extractLsb' 11 5 = k :=
    BitVec.eq_of_toNat_eq
  have four_of : ∀ {k : BitVec 5} {x : BitVec 4}, k.extractLsb' 1 4 = x → (h.extractLsb' 11 5).toNat = k.toNat →
      h.extractLsb' 12 4 = x := fun hx format =>
    (extractLsb'_of_field (format_of format) 1 4 (by omega)).trans hx
  unfold decodeThumb
  simp only
  split
  case h_1 format =>
    exact .thumb (encode_tLslImm ..) (eq_offset5_iff.2 ⟨rfl, rfl, rfl, format_of format⟩) rfl
  case h_2 format | h_3 format | h_13 format | h_14 format | h_15 format | h_16 format | h_17 format | h_18 format =>
    exact .thumb rfl (eq_offset5_iff.2 ⟨rfl, rfl, rfl, format_of format⟩) rfl
  case h_4 format => exact encodesBack_format2 (format_of format)
  case h_5 format | h_6 format | h_7 format | h_8 format | h_10 format | h_19 format | h_20 format | h_21 format
      | h_22 format | h_25 format | h_26 format =>
    exact .thumb rfl (eq_regImm8_iff.2 ⟨rfl, rfl, format_of format⟩) rfl
  case h_9 format =>
    exact .ite
      (fun bit10 => encodesBack_format5 (extractLsb'_of_parts 5 1 (format_of format)
        ((extractLsb'_eq_one_iff ..).2 bit10)))
      fun bit10 => encodesBack_format4 (extractLsb'_of_parts 5 1 (format_of format)
        ((extractLsb'_eq_zero_iff ..).2 (eq_false_of_ne_true bit10)))
  case h_11 format => exact encodesBack_format78 (four_of (k := 10#5) rfl format)
  case h_12 format => exact encodesBack_format78 (four_of (k := 11#5) rfl format)
  case h_23 format => exact encodesBack_format1314 (four_of (k := 22#5) rfl format)
  case h_24 format => exact encodesBack_format1314 (four_of (k := 23#5) rfl format)
  case h_27 format => exact encodesBack_format1617 (four_of (k := 26#5) rfl format)
  case h_28 format => exact encodesBack_format1617 (four_of (k := 27#5) rfl format)
  case h_29 format | h_31 format => exact .thumb rfl (eq_imm11_iff.2 ⟨rfl, format_of format⟩) rfl
  case h_30 format => exact .thumb rfl rfl (undefinedHalf_of_format (format_of format))
  case h_32 =>
    have bound := (h.extractLsb' 11 5).isLt
    have format : (h.extractLsb' 11 5).toNat = 31 := by simp only [imp_false] at *; omega
    exact .thumb rfl (eq_imm11_iff.2 ⟨rfl, format_of format⟩) rfl

/-- Settles O2: each branch of the decoders answers an error or an instruction with the code it was read from. -/
theorem decodedCodeEncodesBack : Obligations.DecodedCodeEncodesBack := by
  unfold Obligations.DecodedCodeEncodesBack
  intro x i hi
  cases x with
  | arm w => exact (encodesBack_arm w).of_ok i hi
  | thumb h => exact (encodesBack_thumb h).of_ok i hi

end Sys2Proof
end

section
/-! SUPPORT. Codes that are no instruction are refused by the step (30_encoding.md R94, R117, R118), and an ARM
instruction whose condition fails only advances (R92). -/

namespace Sys2Proof.Machine

/-! ## Codes that are no instruction -/

/-- A code of no well-formed instruction is refused by the decoder. -/
theorem decode_error_of_ne {x : Code} (h : ∀ i : Instr, i.wellFormed = true → encode i ≠ x) :
    ∃ e, decode x = .error e := by
  cases hx : decode x with
  | error e => exact ⟨e, rfl⟩
  | ok i =>
    obtain ⟨code, wellFormed⟩ := decodedCodeEncodesBack x i hx
    exact absurd code (h i wellFormed)

/-- No condition has the field 1111 (R94). -/
theorem decodeArm_conditionNever {w : Word} (h : w.extractLsb' 28 4 = 15#4) : decodeArm w = .error .conditionNever := by
  rw [decodeArm, h]
  rfl

/-- Outside the prefetch window the instruction comes from memory as it is now (R81). -/
theorem State.fetchMemory_outside {s : State} (h : s.inWindow = false) : s.fetchMemory = s.mem :=
  if_neg (by simp [h])

theorem step_undecodable {s : State} {e : DecodeError} (hs : undisturbed s) (hw : s.inWindow = false)
    (he : decode (codeIn s.mem s) = .error e) : step s = .refused (.undecodable e) := by
  rw [step_undisturbed hs]
  refine runInstruction_error ?_
  rwa [fetched_startOf, State.fetchMemory_outside hw]

/-- Settles O4: what the decoder answers an error for is refused, and by O2 it answers one for every code of no
instruction. -/
theorem conditionNeverRefused : Obligations.ConditionNeverRefused := by
  unfold Obligations.ConditionNeverRefused
  refine fun s hs hw => ⟨fun e => step_undecodable hs hw, fun none => ?_, fun arm never => ?_⟩
  · obtain ⟨e, he⟩ := decode_error_of_ne none
    exact ⟨e, step_undecodable hs hw he⟩
  · refine step_undecodable hs hw ?_
    have code : codeIn s.mem s = .arm (s.readWord s.cur) := if_neg (by simp [arm])
    rw [code]
    exact decodeArm_conditionNever never

/-! ## A failed condition -/

/-- The advance changes the pc, and what hangs on it, alone. -/
theorem onlyAdvanced_advance (s : State) : onlyAdvanced s s.advance :=
  ⟨inSequence_advance rfl rfl rfl rfl, fun _ _ => rfl, ⟨rfl, rfl, rfl, rfl⟩, fun _ => rfl,
    ⟨rfl, rfl, rfl, rfl, rfl⟩, ⟨rfl, rfl, rfl, rfl, rfl⟩, ⟨rfl, rfl, rfl, rfl⟩⟩

/-- An instruction with a condition field is its body under that condition: no instruction, a coprocessor's or an
undefined one neither, does anything before it looks at its condition. -/
theorem exec_eq_conditional {i : Instr} {c : Cond} {rs : List Reg} {s : State}
    (hi : namedRegisters i s = some (c, rs)) : ∃ body, exec i s = conditional c s body := by
  cases i <;> cases hi <;> exact ⟨_, rfl⟩

/-- Settles O19: under a condition that fails every body is the advance. -/
theorem failedConditionOnlyAdvances : Obligations.FailedConditionOnlyAdvances := by
  unfold Obligations.FailedConditionOnlyAdvances
  intro i c rs s hi hc
  obtain ⟨body, hbody⟩ := exec_eq_conditional hi
  exact ⟨s.advance, hbody.trans (conditional_fail hc body), onlyAdvanced_advance s⟩

end Sys2Proof.Machine
end

section
/-! SUPPORT. The fixed words of the spec, the branches B and BL, and the exchange BX in either instruction set
(40_arm_branch.md R131, R132, R134, 49_thumb_branch.md R349). -/

namespace Sys2Proof

/-! ## Words of the spec -/

/-- A code decodes to the well-formed instruction it encodes. -/
theorem decode_of_encode {i : Instr} {x : Code} (hw : i.wellFormed = true) (h : encode i = x) : decode x = .ok i :=
  h ▸ decodeEncodeRoundTrip i hw

/-- Settles O3: each word is the encoding of its instruction, and by O1 an encoding is read back. -/
theorem decodedWords : Obligations.DecodedWords := by
  unfold Obligations.DecodedWords
  refine ⟨?_, ?_, ?_, ?_, ?_⟩ <;> exact decode_of_encode (by decide) (by decide)

end Sys2Proof

namespace Sys2Proof.Machine

/-! ## What a branch leaves -/

/-- A branch is on at its target, with nothing prefetched. -/
theorem wentTo_branchTo (a : Word) (s : State) : wentTo a (s.branchTo a) := ⟨rfl, ⟨rfl, rfl, rfl, rfl⟩, rfl⟩

/-- A branch changes the pc, and what hangs on it, alone. -/
theorem jumped_branchTo (a : Word) (s : State) : jumped a s (s.branchTo a) :=
  ⟨wentTo_branchTo a s, fun _ _ => rfl, ⟨rfl, rfl, rfl, rfl⟩, fun _ => rfl,
    ⟨rfl, rfl, rfl, rfl, rfl⟩, ⟨rfl, rfl, rfl, rfl, rfl⟩, ⟨rfl, rfl, rfl, rfl⟩⟩

/-- A branch leaves every register but r15 as it is. -/
theorem State.readReg_branchTo {r : Reg} (hr : r ≠ 15) (s : State) (a : Word) : (s.branchTo a).readReg r = s.readReg r :=
  State.readReg_congr hr (State.mode_congr rfl) rfl

/-- A register written changes no flag. -/
theorem flagsKept_writeReg (s : State) (r : Reg) (v : Word) : flagsKept s (s.writeReg r v) := by
  simp [flagsKept]

/-- A register written changes no byte of memory. -/
theorem bytesKept_writeReg (s : State) (r : Reg) (v : Word) : bytesKept s (s.writeReg r v) :=
  fun _ => by simp [State.readByte]

/-- A register written changes no control bit, no SPSR and nothing outside. -/
theorem restKept_writeReg (s : State) (r : Reg) (v : Word) : restKept s (s.writeReg r v) := by
  simp [restKept, controlKept, spsrsKept, outsideKept]

/-! ## B and BL (R131, R132) -/

/-- Two places to the left are four times the offset. -/
theorem State.branchTarget_eq (s : State) (off : BitVec 24) :
    s.branchTarget off = s.cur + 8 + off.signExtend 32 * 4 := by
  rw [State.branchTarget, BitVec.shiftLeft_eq_mul_twoPow]
  rfl

theorem exec_b_pass {c : Cond} {s : State} (hc : condHolds c s.cpsr = true) (off : BitVec 24) :
    exec (.b c off) s = .next (s.branchTo (s.branchTarget off)) := conditional_pass hc _

theorem exec_bl_pass {c : Cond} {s : State} (hc : condHolds c s.cpsr = true) (off : BitVec 24) :
    exec (.bl c off) s = .next ((s.writeReg 14 (s.cur + 4)).branchTo (s.branchTarget off)) := conditional_pass hc _

/-- Settles O50: B is a branch, and BL a branch after the write of r14. -/
theorem armBranches : Obligations.ArmBranches := by
  unfold Obligations.ArmBranches
  intro c off s hc
  rw [← s.branchTarget_eq off]
  refine ⟨⟨_, exec_b_pass hc off, jumped_branchTo _ s⟩, _, exec_bl_pass hc off, wentTo_branchTo _ _, ?_, ?_,
    flagsKept_writeReg s 14 (s.cur + 4), bytesKept_writeReg s 14 (s.cur + 4), restKept_writeReg s 14 (s.cur + 4)⟩
  · rw [State.readReg_branchTo (by decide), State.readReg_writeReg_same (by decide)]
  · intro k hk
    exact State.regs_writeReg_of_ne s _ (by simpa using hk)

/-! ## BX (40 R134, 49 R349) -/

/-- BX, its condition passed, and the Thumb BX are one exchange. -/
theorem exec_bx_eq_exchangeTo {i : Instr} {c : Cond} {rm : Reg} {s : State} (hc : condHolds c s.cpsr = true)
    (hi : i = .bx c rm ∨ i = .tBx rm) : exec i s = exchangeTo (s.readReg rm) s := by
  obtain rfl | rfl := hi
  · exact conditional_pass hc _
  · rfl

/-- Bit 0 cleared by a mask is bit 0 cleared by a division. -/
theorem halfAligned_eq_lowOneCleared (a : Word) : halfAligned a = lowOneCleared a :=
  BitVec.eq_of_toNat_eq <| by
    rw [halfAligned_toNat, lowOneCleared, BitVec.toNat_ofNat, Nat.mod_eq_of_lt (by have := a.isLt; omega)]

/-- Bit 0 is the remainder by 2. -/
theorem getLsbD_zero_iff (a : Word) : a.getLsbD 0 = true ↔ a.toNat % 2 = 1 := by
  simp [BitVec.getLsbD, Nat.testBit_zero]

/-- Bit 1 is the remainder by 2 of the half. -/
theorem getLsbD_one_iff (a : Word) : a.getLsbD 1 = true ↔ a.toNat / 2 % 2 = 1 := by
  simp [BitVec.getLsbD, Nat.testBit_succ, Nat.testBit_zero]

theorem exchangeTo_thumb {a : Word} (h : a.toNat % 2 = 1) (s : State) :
    exchangeTo a s = .next ((s.withCpsr { s.cpsr with t := true }).branchTo (lowOneCleared a)) := by
  rw [exchangeTo, if_pos ((getLsbD_zero_iff a).2 h), halfAligned_eq_lowOneCleared]

theorem exchangeTo_arm {a : Word} (h : a.toNat % 4 = 0) (s : State) :
    exchangeTo a s = .next ((s.withCpsr { s.cpsr with t := false }).branchTo a) := by
  rw [exchangeTo, if_neg (by rw [getLsbD_zero_iff]; omega), if_neg (by rw [getLsbD_one_iff]; omega)]

theorem exchangeTo_misaligned {a : Word} (h : a.toNat % 4 = 2) (s : State) :
    exchangeTo a s = .refused .exchangeMisaligned := by
  rw [exchangeTo, if_neg (by rw [getLsbD_zero_iff]; omega), if_pos ((getLsbD_one_iff a).2 (by omega))]

/-- An exchange changes T and the pc, and what hangs on it, alone. -/
theorem exchange_frame (thumb : Bool) (a : Word) (s : State) :
    let t := (s.withCpsr { s.cpsr with t := thumb }).branchTo a
    wentTo a t ∧ t.cpsr = { s.cpsr with t := thumb } ∧ regsKeptBut [] s t ∧ spsrsKept s t ∧ bytesKept s t ∧
      outsideKept s t :=
  ⟨wentTo_branchTo a _, rfl, fun _ _ => rfl, ⟨rfl, rfl, rfl, rfl, rfl⟩, fun _ => rfl, ⟨rfl, rfl, rfl, rfl⟩⟩

/-- Settles O51: both forms are one exchange, which goes by the remainder of its target. -/
theorem exchange : Obligations.Exchange := by
  unfold Obligations.Exchange
  intro i c rm s hc hi
  rw [exec_bx_eq_exchangeTo hc hi]
  exact ⟨fun odd => ⟨_, exchangeTo_thumb odd s, exchange_frame true _ s⟩,
    fun four => ⟨_, exchangeTo_arm four s, exchange_frame false _ s⟩, fun two => exchangeTo_misaligned two s⟩

end Sys2Proof.Machine
end

section
/-! SUPPORT. The shifter operand (41_arm_data_processing.md R142, R143): each shift in arithmetic, and the rows of the two
tables. -/

namespace Sys2Proof.Machine

/-! ## The four shifts in arithmetic -/

theorem toNat_shiftLeft_eq_mul (m : Word) (n : Nat) : (m <<< n).toNat = m.toNat * 2 ^ n % 2 ^ 32 := by
  rw [BitVec.toNat_shiftLeft, Nat.shiftLeft_eq]

theorem toNat_ushiftRight_eq_div (m : Word) (n : Nat) : (m >>> n).toNat = m.toNat / 2 ^ n := by
  rw [BitVec.toNat_ushiftRight, Nat.shiftRight_eq_div_pow]

/-- An arithmetic shift divides, rounding down. -/
theorem toInt_sshiftRight_eq_div (m : Word) (n : Nat) : (m.sshiftRight n).toInt = m.toInt / 2 ^ n := by
  rw [BitVec.toInt_sshiftRight, Int.shiftRight_eq_div_pow]
  rfl

/-- A rotation to the right brings bit k + n to place k, counted round. -/
theorem getLsbD_rotateRight_mod (m : Word) (n : Nat) {k : Nat} (hk : k < 32) :
    (m.rotateRight n).getLsbD k = m.getLsbD ((k + n) % 32) := by
  rw [BitVec.getLsbD_rotateRight, decide_eq_true hk, Bool.true_and]
  by_cases h : k < 32 - n % 32
  · rw [decide_eq_true h, cond_true, show (k + n) % 32 = n % 32 + k by omega]
  · rw [decide_eq_false h, cond_false, show (k + n) % 32 = k - (32 - n % 32) by omega]

/-! ## A shift by an immediate (R142) -/

/-- RRX: the old carry goes to bit 31. -/
theorem getLsbD_rotateExtended_top (m : Word) (c : Bool) : (wordAt 31 (bit c) ||| m >>> 1).getLsbD 31 = c := by
  simp [wordAt, bit]

/-- Every other bit goes one place down. -/
theorem getLsbD_rotateExtended (m : Word) (c : Bool) {k : Nat} (hk : k < 31) :
    (wordAt 31 (bit c) ||| m >>> 1).getLsbD k = m.getLsbD (k + 1) := by
  simp [wordAt, hk, Nat.add_comm]

/-- Settles O24: an amount of 0 has the row of its own, and any other is the shift by that many places. -/
theorem shiftImmediateTable : Obligations.ShiftImmediateTable := by
  unfold Obligations.ShiftImmediateTable
  intro m n c r
  refine ⟨?_, fun hn => ?_⟩
  · rintro rfl
    exact ⟨rfl, rfl, rfl, rfl, getLsbD_rotateExtended_top m c, fun k => getLsbD_rotateExtended m c⟩
  · have hn : n.toNat ≠ 0 := fun e => hn (BitVec.eq_of_toNat_eq e)
    simp only [r, shiftByImmediate, if_neg hn, true_and, and_true]
    exact ⟨toNat_shiftLeft_eq_mul m _, toNat_ushiftRight_eq_div m _, toInt_sshiftRight_eq_div m _,
      fun k => getLsbD_rotateRight_mod m _⟩

/-! ## A shift by a register (R143) -/

/-- Bits 7:0 of a word are its remainder by 256. -/
theorem toNat_lowByte (rs : Word) : (rs.extractLsb' 0 8).toNat = rs.toNat % 256 := by
  simp [BitVec.extractLsb'_toNat]

/-- Settles O25: the amount falls under 0, 1 to 31, 32, or above; a rotation counts it round. -/
theorem shiftRegisterTable : Obligations.ShiftRegisterTable := by
  unfold Obligations.ShiftRegisterTable
  intro m rs n hn r
  have amount : (rs.extractLsb' 0 8).toNat = n := (toNat_lowByte rs).trans hn.symm
  refine ⟨fun zero sh => ?_, fun low high => ?_, fun full => ?_, fun above => ?_, fun out => ?_, fun positive whole => ?_,
    fun part => ?_⟩
  · simp only [r, shiftByRegister, amount, if_pos zero]
  · have positive : n ≠ 0 := by omega
    have below : n < 32 := by omega
    simp only [r, shiftByRegister, amount, if_neg positive, if_pos below, true_and, and_true]
    exact ⟨toNat_shiftLeft_eq_mul m n, toNat_ushiftRight_eq_div m n, toInt_sshiftRight_eq_div m n⟩
  · simp [r, shiftByRegister, amount, full]
  · have positive : n ≠ 0 := by omega
    have notBelow : ¬ n < 32 := by omega
    have notFull : n ≠ 32 := by omega
    simp only [r, shiftByRegister, amount, if_neg positive, if_neg notBelow, if_neg notFull, and_self]
  · have positive : n ≠ 0 := by omega
    simp only [r, shiftByRegister, amount, if_neg positive, if_neg (Nat.not_lt.2 out)]
    rfl
  · simp only [r, shiftByRegister, amount, if_neg positive, if_pos whole]
  · have positive : n ≠ 0 := by omega
    simp only [r, shiftByRegister, amount, if_neg positive, if_neg part, and_true]
    intro k hk
    rw [getLsbD_rotateRight_mod m _ hk, Nat.add_mod_mod]

end Sys2Proof.Machine
end

section
/-! SUPPORT. The sum of 41_arm_data_processing.md R146 as exact sums and differences, and each of the sixteen operations
against its rule (R147, R150 to R165). -/

namespace Sys2Proof.Machine

/-! ## AddWithCarry (R146) -/

/-- The value of a sum is the wrapped sum. -/
theorem addWithCarry_value (a b : Word) (c : Bool) : (addWithCarry a b c).value = a + b + (if c then 1 else 0) := by
  refine BitVec.eq_of_toNat_eq ?_
  cases c <;> simp [addWithCarry, BitVec.toNat_add]

/-- Its signed value is the exact signed sum, reduced. -/
theorem addWithCarry_value_toInt (a b : Word) (c : Bool) :
    (addWithCarry a b c).value.toInt = (a.toInt + b.toInt + c.toNat).bmod (2 ^ 32) := by
  have hc : ((if c then 1 else 0 : Word)).toInt = c.toNat := by cases c <;> rfl
  rw [addWithCarry_value, BitVec.toInt_add, BitVec.toInt_add, hc, Int.bmod_add_bmod]

/-- V says that the result is not the exact signed sum. -/
theorem addWithCarry_overflow (a b : Word) (c : Bool) :
    (addWithCarry a b c).overflow =
      some (decide ((addWithCarry a b c).value.toInt ≠ a.toInt + b.toInt + c.toNat)) := by
  have := a.le_toInt
  have := b.le_toInt
  have := a.toInt_lt
  have := b.toInt_lt
  have := c.toNat_le
  rw [addWithCarry_value_toInt, addWithCarry, Option.some.injEq, ← Bool.decide_or, decide_eq_decide]
  simp only [Int.bmod_def]
  omega

/-- The complement of a word is its negative less one. -/
theorem toInt_not_eq_neg (b : Word) : (~~~b).toInt = -b.toInt - 1 := by
  have := b.isLt
  rw [BitVec.toInt_eq_toNat_cond, BitVec.toInt_eq_toNat_cond, BitVec.toNat_not]
  omega

/-! ## Differences: the sum with the complement -/

theorem addWithCarry_not_value (a b : Word) (c : Bool) :
    (addWithCarry a (~~~b) c).value = a - b - (if c then 0 else 1) := by
  rw [addWithCarry_value]
  cases c <;> simp only [Bool.false_eq_true, if_true, if_false] <;> bv_omega

/-- No borrow is a carry. -/
theorem addWithCarry_not_carry (a b : Word) (c : Bool) :
    (addWithCarry a (~~~b) c).carry = some (decide (b.toNat + (!c).toNat ≤ a.toNat)) := by
  have := b.isLt
  simp only [addWithCarry, BitVec.toNat_not, Option.some.injEq, decide_eq_decide]
  cases c <;> simp only [Bool.toNat_false, Bool.toNat_true, Bool.not_false, Bool.not_true] <;> omega

/-- V says that the result is not the exact signed difference. -/
theorem addWithCarry_not_overflow (a b : Word) (c : Bool) :
    (addWithCarry a (~~~b) c).overflow =
      some (decide ((a - b - (if c then 0 else 1)).toInt ≠ a.toInt - b.toInt - (!c).toNat)) := by
  rw [addWithCarry_overflow, addWithCarry_not_value, toInt_not_eq_neg]
  have exact : a.toInt + (-b.toInt - 1) + c.toNat = a.toInt - b.toInt - (!c).toNat := by
    cases c <;> simp only [Bool.toNat_false, Bool.toNat_true, Bool.not_false, Bool.not_true] <;> omega
  rw [exact]

/-! ## The sixteen operations (R147, R150 to R165) -/

theorem alu_value (op : AluOp) (a b : Word) (sco : Option Bool) (c : Bool) :
    (alu op a b sco c).value = specResult op a b c := by
  cases op with
  | and | eor | tst | teq | orr | mov | bic | mvn => rfl
  | add | cmn => simp [alu, specResult, addWithCarry_value]
  | adc => exact addWithCarry_value a b c
  | sub | cmp | rsb => simp [alu, specResult, addWithCarry_not_value]
  | sbc => exact addWithCarry_not_value a b c
  | rsc => exact addWithCarry_not_value b a c

theorem alu_carry (op : AluOp) (a b : Word) (sco : Option Bool) (c : Bool) :
    (alu op a b sco c).carry.getD c = specCarry op a b c sco := by
  cases op with
  | and | eor | tst | teq | orr | mov | bic | mvn => rfl
  | add | cmn | adc => rfl
  | sub | cmp => exact congrArg (·.getD c) (addWithCarry_not_carry a b true)
  | rsb => exact congrArg (·.getD c) (addWithCarry_not_carry b a true)
  | sbc => exact congrArg (·.getD c) (addWithCarry_not_carry a b c)
  | rsc => exact congrArg (·.getD c) (addWithCarry_not_carry b a c)

theorem alu_overflow (op : AluOp) (a b : Word) (sco : Option Bool) (c old : Bool) :
    (alu op a b sco c).overflow.getD old = specOverflow op a b c old := by
  cases op with
  | and | eor | tst | teq | orr | mov | bic | mvn => rfl
  | add | cmn | adc => simp [alu, specOverflow, specExact, specResult, addWithCarry_overflow, addWithCarry_value]
  | sub | cmp | rsb | sbc | rsc => simp [alu, specOverflow, specExact, specResult, addWithCarry_not_overflow]

/-- The flags of the result are those the rules give. -/
theorem flagsGiven_of_cpsr {op : AluOp} {a : Word} {o : Shifted} {s t : State}
    (h : t.cpsr = s.cpsr.withResult (alu op a o.value o.carry s.cpsr.c)) : flagsGiven op a o s t := by
  rw [flagsGiven, h]
  refine ⟨?_, ?_, alu_carry .., alu_overflow ..⟩
  · rw [Psr.withResult, alu_value]
  · rw [Psr.withResult, alu_value]
    rfl

end Sys2Proof.Machine
end

section
/-! SUPPORT. The ARM data-processing instructions (41_arm_data_processing.md R140 to R166): their effect, the jump and the
return with Rd = 15, the refusal of r15, and the order that CMP decides. -/

namespace Sys2Proof.Machine

/-! ## The three layouts -/

/-- A compare has no destination and its S bit is 1, and a move has no first operand: neither counts. -/
theorem exec_dpImm (op : AluOp) (c : Cond) (f : Bool) (rn rd : Reg) (rot : BitVec 4) (imm : BitVec 8) (s : State) :
    exec (Instr.dpImm op c f rn rd rot imm) s =
      conditional c s (dataProcess op f rn rd (immediateOperand rot imm) s) := by
  cases op <;> rfl

theorem exec_dpShImm (op : AluOp) (c : Cond) (f : Bool) (rn rd : Reg) (n : BitVec 5) (sh : Shift) (rm : Reg) (s : State) :
    exec (Instr.dpShImm op c f rn rd n sh rm) s =
      conditional c s (dataProcess op f rn rd (shiftByImmediate sh (s.readReg rm) n s.cpsr.c) s) := by
  cases op <;> rfl

/-- The registers refused if r15 are those the operation has (R145). -/
theorem exec_dpShReg (op : AluOp) (c : Cond) (f : Bool) (rn rd rs : Reg) (sh : Shift) (rm : Reg) (s : State) :
    exec (Instr.dpShReg op c f rn rd rs sh rm) s =
      conditional c s (guarded (pcRefusal [if op.moves then 0 else rn, if op.compares then 0 else rd, rs, rm])
        (dataProcess op f rn rd (shiftByRegister sh (s.readReg rm) (s.readReg rs)) s)) := by
  cases op <;> rfl

/-! ## What a data-processing instruction answers (R147 to R149) -/

theorem dataProcess_compare {op : AluOp} (h : op.compares = true) (f : Bool) (rn rd : Reg) (o : Shifted) (s : State) :
    dataProcess op f rn rd o s =
      .next (s.withCpsr (s.cpsr.withResult (alu op (s.readReg rn) o.value o.carry s.cpsr.c))).advance :=
  if_pos h

theorem dataProcess_write {op : AluOp} {rd : Reg} (h : op.compares = false) (hd : rd ≠ 15) (f : Bool) (rn : Reg)
    (o : Shifted) (s : State) :
    let r := alu op (s.readReg rn) o.value o.carry s.cpsr.c
    dataProcess op f rn rd o s =
      .next ((if f then s.withCpsr (s.cpsr.withResult r) else s).writeReg rd r.value).advance := by
  simp only [dataProcess, h, Bool.false_eq_true, if_false, if_neg hd]

theorem dataProcess_pc {op : AluOp} (h : op.compares = false) (f : Bool) (rn : Reg) (o : Shifted) (s : State) :
    let r := specResult op (s.readReg rn) o.value s.cpsr.c
    dataProcess op f rn 15 o s = if f then exceptionReturn r s else jumpExact r s := by
  simp only [dataProcess, h, Bool.false_eq_true, if_false, if_true, alu_value]

/-- An advance leaves every register but r15 as it is. -/
theorem State.readReg_advance {r : Reg} (hr : r ≠ 15) (s : State) : s.advance.readReg r = s.readReg r :=
  State.readReg_congr hr (State.mode_congr rfl) rfl

/-- A write of the flags, if any, a register written and the advance: what is left of the state before. -/
theorem advance_writeReg_frame {rd : Reg} (hd : rd ≠ 15) (s : State) {q : Psr} (v : Word)
    (control : controlKept s (s.withCpsr q)) :
    let t := ((s.withCpsr q).writeReg rd v).advance
    t.readReg rd = v ∧ regsKeptBut [regIndex s.mode rd] s t ∧ bytesKept s t ∧ restKept s t ∧ inSequence s t := by
  have ⟨_, _, _, ht, hm⟩ := control
  have hmode : (s.withCpsr q).mode = s.mode := by rw [State.mode, hm, State.mode]
  refine ⟨?_, ?_, ?_, ⟨?_, ?_, ?_⟩, ?_⟩
  · rw [State.readReg_advance hd, State.readReg_writeReg_same hd]
  · intro k hk
    refine State.regs_writeReg_of_ne (s.withCpsr q) v ?_
    rw [hmode]
    simpa using hk
  · exact bytesKept_writeReg (s.withCpsr q) rd v
  · simpa [controlKept] using control
  · simp [spsrsKept]
  · simp [outsideKept]
  · exact inSequence_advance (by simp) (by simpa using ht) (by simp) (by simp)

/-- A data-processing instruction with no destination, or one that is not r15, has its effect in full. -/
theorem dataProcess_effect {op : AluOp} {rd : Reg} (h : op.compares = true ∨ rd ≠ 15) (f : Bool) (rn : Reg) (o : Shifted)
    (s : State) : ∃ t, dataProcess op f rn rd o s = .next t ∧ dataEffect op f rd (s.readReg rn) o s t := by
  cases hc : op.compares with
  | true =>
    refine ⟨_, dataProcess_compare hc f rn rd o s, ?_⟩
    obtain ⟨regs, bytes, spsrs, outside, sequence⟩ :=
      advance_withCpsr_frame s (q := s.cpsr.withResult (alu op (s.readReg rn) o.value o.carry s.cpsr.c)) rfl
    rw [dataEffect, if_pos hc, hc, Bool.true_or, if_pos rfl]
    exact ⟨regs, flagsGiven_of_cpsr rfl, bytes, ⟨⟨rfl, rfl, rfl, rfl, rfl⟩, spsrs, outside⟩, sequence⟩
  | false =>
    have hd : rd ≠ 15 := h.resolve_left (by simp [hc])
    refine ⟨_, dataProcess_write hc hd f rn o s, ?_⟩
    rw [dataEffect, if_neg (by simp [hc]), hc, Bool.false_or, alu_value]
    cases f with
    | true =>
      obtain ⟨value, regs, frame⟩ :=
        advance_writeReg_frame hd s (specResult op (s.readReg rn) o.value s.cpsr.c)
          (q := s.cpsr.withResult (alu op (s.readReg rn) o.value o.carry s.cpsr.c)) ⟨rfl, rfl, rfl, rfl, rfl⟩
      exact ⟨⟨value, regs⟩, flagsGiven_of_cpsr (by simp), frame⟩
    | false =>
      obtain ⟨value, regs, frame⟩ :=
        advance_writeReg_frame hd s (specResult op (s.readReg rn) o.value s.cpsr.c) (q := s.cpsr) ⟨rfl, rfl, rfl, rfl, rfl⟩
      exact ⟨⟨value, regs⟩, flagsKept_writeReg s rd _, frame⟩

/-- Settles O21: the operand is the rotated immediate. -/
theorem dataImmediateEffect : Obligations.DataImmediateEffect := by
  unfold Obligations.DataImmediateEffect
  rintro op c f rn rd rot imm s _ hc hd rfl
  rw [exec_dpImm, conditional_pass hc]
  exact dataProcess_effect hd f rn (immediateOperand rot imm) s

/-- Settles O22: the operand is the register shifted. -/
theorem dataShiftImmediateEffect : Obligations.DataShiftImmediateEffect := by
  unfold Obligations.DataShiftImmediateEffect
  intro op c f rn rd n sh rm s hc hd
  rw [exec_dpShImm, conditional_pass hc]
  exact dataProcess_effect hd f rn _ s

/-! ## r15 in the register-shift layout (R145) -/

theorem pcRefusal_eq_none_iff (rs : List Reg) : pcRefusal rs = none ↔ 15 ∉ rs := by
  simp [pcRefusal]

theorem pcRefusal_of_mem {rs : List Reg} (h : 15 ∈ rs) : pcRefusal rs = some .pcOperand :=
  if_pos (List.contains_iff_mem.2 h)

/-- Settles O23: no register that the operation has is r15, so nothing is refused. -/
theorem dataShiftRegisterEffect : Obligations.DataShiftRegisterEffect := by
  unfold Obligations.DataShiftRegisterEffect
  intro op c f rn rd rs sh rm s hc hd hn hs hm
  have allowed : pcRefusal [if op.moves then 0 else rn, if op.compares then 0 else rd, rs, rm] = none := by
    rw [pcRefusal_eq_none_iff]
    simp only [List.mem_cons, List.not_mem_nil, or_false, not_or]
    refine ⟨?_, ?_, hs.symm, hm.symm⟩
    · split
      · decide
      · exact (hn.resolve_left ‹_›).symm
    · split
      · decide
      · exact (hd.resolve_left ‹_›).symm
  rw [exec_dpShReg, conditional_pass hc, allowed]
  exact dataProcess_effect hd f rn _ s

/-- Settles O28: one of the registers that the operation has is r15. -/
theorem registerShiftPcRefused : Obligations.RegisterShiftPcRefused := by
  unfold Obligations.RegisterShiftPcRefused
  intro op c f rn rd rs sh rm s hc hpc
  have named : 15 ∈ [if op.moves then 0 else rn, if op.compares then 0 else rd, rs, rm] := by
    rcases hpc with ⟨ho, rfl⟩ | ⟨ho, rfl⟩ | rfl | rfl <;> simp [*]
  rw [exec_dpShReg, conditional_pass hc, pcRefusal_of_mem named]
  rfl

/-! ## Rd = 15 (R148, R149) -/

/-- A jump needs a multiple of 4 (10_state.md R33). -/
theorem jumpExact_aligned {a : Word} (h : a.toNat % 4 = 0) (s : State) : jumpExact a s = .next (s.branchTo a) :=
  if_pos (by simpa [alignedFor] using (alignedFor_iff false a).2 h)

theorem jumpExact_misaligned {a : Word} (h : a.toNat % 4 ≠ 0) (s : State) : jumpExact a s = .refused .pcMisaligned :=
  if_neg fun e => h ((alignedFor_iff false a).1 (by simp [alignedFor, e]))

/-- With Rd = 15 the result is jumped to or, with S = 1, returned to. -/
theorem exec_dataToPc {i : Instr} {op : AluOp} {c : Cond} {f : Bool} {rn : Reg} {o : Shifted} {s : State}
    (hc : condHolds c s.cpsr = true) (ho : op.compares = false) (hi : dataToPc i op c f rn o s) :
    let r := specResult op (s.readReg rn) o.value s.cpsr.c
    exec i s = if f then exceptionReturn r s else jumpExact r s := by
  obtain ⟨rot, imm, rfl, hv⟩ | ⟨n, sh, rm, rfl, rfl⟩ := hi
  · rw [exec_dpImm, conditional_pass hc, dataProcess_pc ho, hv]
    rfl
  · rw [exec_dpShImm, conditional_pass hc, dataProcess_pc ho]

/-- Settles O26: the jump takes the result as it is. -/
theorem dataPcJump : Obligations.DataPcJump := by
  unfold Obligations.DataPcJump
  intro i op c rn o s hc ho hi r
  have jump : exec i s = jumpExact r s := exec_dataToPc hc ho hi
  rw [jump]
  exact ⟨fun h => ⟨_, jumpExact_aligned h s, jumped_branchTo r s⟩, fun h => jumpExact_misaligned h s⟩

/-- Settles O27: with S = 1 the result is returned to. -/
theorem dataPcReturn : Obligations.DataPcReturn := by
  unfold Obligations.DataPcReturn
  intro i op c rn o s hc ho hi
  exact exec_dataToPc hc ho hi

/-! ## The order that CMP decides (R160, R166) -/

/-- N of a difference differs from V just where the exact difference is negative. -/
theorem msb_sub_eq_overflow_iff (a b : Word) :
    ((a - b).msb = decide ((a - b).toInt ≠ a.toInt - b.toInt)) ↔ b.toInt ≤ a.toInt := by
  have := a.le_toInt
  have := b.le_toInt
  have := a.toInt_lt
  have := b.toInt_lt
  rw [BitVec.msb_eq_toInt, decide_eq_decide, BitVec.toInt_sub, Int.bmod_def]
  omega

/-- What the conditions read after a CMP: Z is equality, C the unsigned order, N = V the signed one. -/
theorem compare_flags {a b : Word} {s t : State} (h : flagsGiven .cmp a ⟨b, none⟩ s t) :
    t.cpsr.z = decide (a = b) ∧ t.cpsr.c = decide (b.toNat ≤ a.toNat) ∧
      (t.cpsr.n == t.cpsr.v) = decide (b.toInt ≤ a.toInt) := by
  obtain ⟨hn, hz, hcarry, hv⟩ := h
  refine ⟨?_, hcarry, ?_⟩
  · rw [hz, decide_eq_decide]
    exact sub_eq_zero
  · rw [hn, hv, Bool.eq_iff_iff, beq_iff_eq, decide_eq_true_iff]
    exact msb_sub_eq_overflow_iff a b

/-- Settles O29: each condition is read off Z, C and N = V. -/
theorem compareDecidesOrder : Obligations.CompareDecidesOrder := by
  unfold Obligations.CompareDecidesOrder
  intro c rn rm s hc a b
  obtain ⟨t, ht, -, flags, -⟩ := dataShiftImmediateEffect .cmp c true rn 0 0 .lsl rm s hc (.inl rfl)
  obtain ⟨hz, hcarry, hsigned⟩ : _ ∧ _ ∧ _ := compare_flags (a := a) (b := b) flags
  have unsignedEq : a = b ↔ a.toNat = b.toNat := BitVec.toNat_inj.symm
  have signedEq : a = b ↔ a.toInt = b.toInt := BitVec.toInt_inj.symm
  refine ⟨t, ht, hz, ?_, hcarry, ?_, ?_, ?_, hsigned, ?_, ?_, ?_⟩
  · simp [condHolds, hz]
  · simp only [condHolds, hcarry, ← decide_not, decide_eq_decide]
    omega
  · simp only [condHolds, hz, hcarry, unsignedEq, ← decide_not, ← Bool.decide_and, decide_eq_decide]
    omega
  · simp only [condHolds, hz, hcarry, unsignedEq, ← decide_not, ← Bool.decide_or, decide_eq_decide]
    omega
  · simp only [condHolds, bne, hsigned, ← decide_not, decide_eq_decide]
    omega
  · simp only [condHolds, hz, hsigned, signedEq, ← decide_not, ← Bool.decide_and, decide_eq_decide]
    omega
  · simp only [condHolds, bne, hz, hsigned, signedEq, ← decide_not, ← Bool.decide_or, decide_eq_decide]
    omega

end Sys2Proof.Machine
end

section
/-! SUPPORT. Status register transfer (42_arm_psr_transfer.md R181 to R186): what MRS reads, the fields that MSR writes
in a privileged mode, and where the two stop. -/

namespace Sys2Proof.Machine

/-! ## A status register as a word, and its fields (R40, R46, R182) -/

/-- Every bit of a status register but the reserved ones stands at its place in the word. -/
theorem showsStatus_toWord (p : Psr) : showsStatus p p.toWord := by
  have mode : p.toWord.extractLsb' 0 5 = p.m := by
    simp only [Psr.toWord, extractLsb'_union]
    simp (disch := omega) [wordAt_same, wordAt_apart]
  refine ⟨?_, ?_, ?_, ?_, ?_, ?_, ?_, mode⟩ <;> simp [Psr.toWord, getElem_wordAt, getElem_bit]

/-- So it does in the word that MRS reads, whatever that word has in bits 27:8. -/
theorem showsStatus_asRead (p : Psr) (n : Nat) : showsStatus p (p.asRead n) :=
  showsStatus_toWord { p with reserved := Config.reservedRead n p.reserved }

theorem flagFieldOf_masked (p : Psr) (mask : BitVec 4) (w : Word) :
    flagFieldOf (mask.getLsbD 3) w p (p.masked mask w) := by
  unfold flagFieldOf Psr.masked
  cases mask.getLsbD 3 <;> cases mask.getLsbD 0 <;> exact ⟨rfl, rfl, rfl, rfl⟩

theorem controlFieldOf_masked (p : Psr) (mask : BitVec 4) (w : Word) :
    controlFieldOf (mask.getLsbD 0) w p (p.masked mask w) := by
  unfold controlFieldOf Psr.masked
  cases mask.getLsbD 3 <;> cases mask.getLsbD 0 <;> exact ⟨rfl, rfl, rfl, rfl⟩

theorem Psr.masked_reserved (p : Psr) (mask : BitVec 4) (w : Word) : (p.masked mask w).reserved = p.reserved := by
  unfold Psr.masked
  cases mask.getLsbD 3 <;> cases mask.getLsbD 0 <;> rfl

/-! ## The SPSR of a mode (R47) -/

/-- A mode that has an SPSR reads back the one written. -/
theorem State.spsrOf_setSpsrOf_same {s : State} {m : Mode} {p : Psr} (h : s.spsrOf m = some p) (q : Psr) :
    (s.setSpsrOf m q).spsrOf m = some q := by
  cases m with
  | usr | sys => cases h
  | fiq | irq | svc | abt | und => rfl

theorem State.spsrOf_eq_none {s : State} {m : Mode} (h : m = .usr ∨ m = .sys) : s.spsrOf m = none := by
  obtain rfl | rfl := h <;> rfl

/-- An SPSR written and the advance: what is left of the state before. -/
theorem advance_setSpsrOf_frame (s : State) (m : Mode) (q : Psr) :
    let t := (s.setSpsrOf m q).advance
    (∀ n, n ≠ m → t.spsrOf n = s.spsrOf n) ∧ t.cpsr = s.cpsr ∧ regsKeptBut [] s t ∧ bytesKept s t ∧
      outsideKept s t ∧ inSequence s t := by
  refine ⟨fun n hn => s.spsrOf_setSpsrOf_of_ne hn q, ?_, ?_, ?_, ?_, inSequence_advance ?_ ?_ ?_ ?_⟩ <;>
    simp [regsKeptBut, bytesKept, outsideKept, State.readByte]

/-! ## MRS (R181) -/

/-- A free value drawn before or after the write of Rd is the same. -/
theorem moveFromStatus_eq (p : Psr) (rd : Reg) (s : State) :
    moveFromStatus p rd s = (s.drawn.writeReg rd (p.asRead s.draws)).advance := by
  unfold moveFromStatus State.writeReg
  split <;> rfl

/-- The status register in Rd and the advance: what is left of the state before. -/
theorem moveFromStatus_effect {rd : Reg} (hd : rd ≠ 15) (p : Psr) (s : State) :
    let t := moveFromStatus p rd s
    t.readReg rd = p.asRead s.draws ∧ regsKeptBut [regIndex s.mode rd] s t ∧ bytesKept s t ∧ restKept s t ∧
      inSequence s t := by
  rw [moveFromStatus_eq]
  exact advance_writeReg_frame hd s.drawn (q := s.cpsr) (p.asRead s.draws) ⟨rfl, rfl, rfl, rfl, rfl⟩

theorem flagsKept_moveFromStatus (p : Psr) (rd : Reg) (s : State) : flagsKept s (moveFromStatus p rd s) :=
  flagsKept_writeReg s rd (p.asRead s.draws)

theorem pcRefusal_singleton {r : Reg} (h : r ≠ 15) : pcRefusal [r] = none :=
  (pcRefusal_eq_none_iff [r]).2 (by simpa using h.symm)

theorem exec_mrs_cpsr {c : Cond} {rd : Reg} {s : State} (hc : condHolds c s.cpsr = true) (hd : rd ≠ 15) :
    exec (.mrs c false rd) s = .next (moveFromStatus s.cpsr rd s) :=
  (conditional_pass hc _).trans (by rw [pcRefusal_singleton hd]; rfl)

theorem exec_mrs_spsr {c : Cond} {rd : Reg} {p : Psr} {s : State} (hc : condHolds c s.cpsr = true) (hd : rd ≠ 15)
    (hp : s.spsrOf s.mode = some p) : exec (.mrs c true rd) s = .next (moveFromStatus p rd s) :=
  (conditional_pass hc _).trans (by rw [pcRefusal_singleton hd, hp]; rfl)

theorem exec_mrs_noSpsr {c : Cond} {rd : Reg} {s : State} (hc : condHolds c s.cpsr = true) (hd : rd ≠ 15)
    (hp : s.spsrOf s.mode = none) : exec (.mrs c true rd) s = .refused .noSpsr :=
  (conditional_pass hc _).trans (by rw [pcRefusal_singleton hd, hp]; rfl)

/-- Settles O30: either status register goes to Rd as MRS reads it. -/
theorem mrsEffect : Obligations.MrsEffect := by
  unfold Obligations.MrsEffect
  intro c fromSpsr rd p s hc hd hp
  have moves : exec (.mrs c fromSpsr rd) s = .next (moveFromStatus p rd s) := by
    cases fromSpsr with
    | false =>
      obtain rfl : p = s.cpsr := hp
      exact exec_mrs_cpsr hc hd
    | true => exact exec_mrs_spsr hc hd hp
  obtain ⟨value, regs, bytes, rest, sequence⟩ := moveFromStatus_effect hd p s
  exact ⟨_, moves, value ▸ showsStatus_asRead p s.draws, regs, flagsKept_moveFromStatus p rd s, bytes, rest,
    sequence⟩

/-! ## MSR in a privileged mode (R182, R185, R186) -/

/-- An MSR to the SPSR whose condition passes moves its operand. -/
theorem exec_msr_spsr {i : Instr} {c : Cond} {mask : BitVec 4} {v : Word} {s : State}
    (hi : isMsr i c true mask v s) (hc : condHolds c s.cpsr = true) : exec i s = moveToSpsr mask v s := by
  obtain ⟨rm, hm, rfl, rfl⟩ | ⟨rot, imm, rfl, rfl⟩ := hi
  · exact (conditional_pass hc _).trans (by rw [pcRefusal_singleton hm]; rfl)
  · exact conditional_pass hc _

theorem moveToSpsr_some {s : State} {p : Psr} (hp : s.spsrOf s.mode = some p) (mask : BitVec 4) (w : Word) :
    moveToSpsr mask w s = .next (s.setSpsrOf s.mode (p.masked mask w)).advance := by
  rw [moveToSpsr, hp]

theorem moveToSpsr_none {s : State} (hp : s.spsrOf s.mode = none) (mask : BitVec 4) (w : Word) :
    moveToSpsr mask w s = .refused .noSpsr := by
  rw [moveToSpsr, hp]

section
variable {s : State} {mask : BitVec 4} {w : Word} (hu : s.mode ≠ .usr)
include hu

/-- The c field is not selected, or its operand keeps T and holds a legal mode: the fields selected are written. -/
theorem moveToCpsr_privileged
    (h : mask.getLsbD 0 = true → w.getLsbD 5 = s.cpsr.t ∧ modeOfBits (w.extractLsb' 0 5) ≠ none) :
    moveToCpsr mask w s = .next (s.withCpsr (s.cpsr.masked mask w)).advance := by
  rw [moveToCpsr, if_neg hu]
  cases hm : mask.getLsbD 0 with
  | false => rfl
  | true =>
    obtain ⟨ht, legal⟩ := h hm
    rw [ht, if_neg (by simp), if_neg (by simpa using legal)]

/-- The operand of the c field would change T. -/
theorem moveToCpsr_forcesT (hm : mask.getLsbD 0 = true) (ht : w.getLsbD 5 ≠ s.cpsr.t) :
    moveToCpsr mask w s = .refused .forcesT := by
  rw [moveToCpsr, if_neg hu, if_pos (by simpa [hm] using ht)]

/-- The operand of the c field keeps T and holds an illegal mode. -/
theorem moveToCpsr_illegalMode (hm : mask.getLsbD 0 = true) (ht : w.getLsbD 5 = s.cpsr.t)
    (illegal : modeOfBits (w.extractLsb' 0 5) = none) : moveToCpsr mask w s = .fault .illegalMode := by
  rw [moveToCpsr, if_neg hu, ht, if_neg (by simp), illegal, hm]
  rfl

end

/-- Settles O32: the MSR completes with the status register masked, and advances. -/
theorem msrPrivilegedMode : Obligations.MsrPrivilegedMode := by
  unfold Obligations.MsrPrivilegedMode
  refine fun i c mask v s hc => ⟨fun hi hu legal => ?_, fun p hi hp => ?_⟩
  · refine ⟨_, (exec_msr_cpsr hi hc).trans (moveToCpsr_privileged hu legal), ?_⟩
    have ht : (s.cpsr.masked mask v).t = s.cpsr.t := by
      rw [Psr.masked_t]
      split
      · exact (legal ‹_›).1
      · rfl
    obtain ⟨regs, bytes, spsrs, outside, sequence⟩ := advance_withCpsr_frame s ht
    exact ⟨flagFieldOf_masked .., controlFieldOf_masked .., Psr.masked_reserved .., regs, spsrs, bytes, outside,
      sequence⟩
  · refine ⟨_, p.masked mask v, (exec_msr_spsr hi hc).trans (moveToSpsr_some hp mask v),
      State.spsrOf_setSpsrOf_same hp _, flagFieldOf_masked .., controlFieldOf_masked .., Psr.masked_reserved .., ?_⟩
    exact advance_setSpsrOf_frame s s.mode _

/-! ## Where MRS and MSR stop (R181, R182, R185, R186) -/

/-- Settles O33: r15 is looked at first, then the SPSR; in the operand T before the mode. -/
theorem statusTransferStops : Obligations.StatusTransferStops := by
  unfold Obligations.StatusTransferStops
  refine fun i c mask toSpsr rd v s hc =>
    ⟨conditional_pass hc _, conditional_pass hc _, fun hs => ?_, fun hi hu hm => ?_⟩
  · have noSpsr : s.spsrOf s.mode = none := State.spsrOf_eq_none hs
    exact ⟨fun hd => exec_mrs_noSpsr hc hd noSpsr,
      fun hi => (exec_msr_spsr hi hc).trans (moveToSpsr_none noSpsr mask v)⟩
  · rw [exec_msr_cpsr hi hc]
    exact ⟨moveToCpsr_forcesT hu hm, moveToCpsr_illegalMode hu hm⟩

end Sys2Proof.Machine
end

section
/-! SUPPORT. The multiplies (43_arm_multiply.md R190 to R198, 47_thumb_alu.md R293): the product and the flags they leave,
and the registers they refuse. -/

namespace Sys2Proof.Machine

/-! ## What is left of the state before a register write -/

theorem regsKeptBut_of_writeReg {s t : State} {r : Reg} {v : Word} {ks : List (Fin 30)}
    (h : regsKeptBut ks (s.writeReg r v) t) : regsKeptBut (ks ++ [regIndex s.mode r]) s t := by
  intro k hk
  have ⟨hks, hr⟩ : k ∉ ks ∧ k ≠ regIndex s.mode r := by simpa using hk
  exact (h k hks).trans (State.regs_writeReg_of_ne s v hr)

theorem bytesKept_of_writeReg {s t : State} {r : Reg} {v : Word} (h : bytesKept (s.writeReg r v) t) : bytesKept s t :=
  fun a => (h a).trans (bytesKept_writeReg s r v a)

theorem restKept_of_writeReg {s t : State} {r : Reg} {v : Word} (h : restKept (s.writeReg r v) t) : restKept s t := by
  simpa [restKept, controlKept, spsrsKept, outsideKept] using h

theorem inSequence_of_writeReg {s t : State} {r : Reg} {v : Word} (h : inSequence (s.writeReg r v) t) :
    inSequence s t := by
  simpa [inSequence, followsOnPlain, followsOn, nothingStored] using h

/-- The mode is among the control bits. -/
theorem mode_of_controlKept {s t : State} (h : controlKept s t) : t.mode = s.mode := by
  have ⟨_, _, _, _, hm⟩ := h
  rw [State.mode, hm, State.mode]

/-! ## A product written (R191 to R193) -/

/-- Flags written and a free value drawn after the write of a register are as before it. -/
theorem drawn_withCpsr_writeReg (s : State) {q : Psr} (hm : q.m = s.cpsr.m) (r : Reg) (v : Word) :
    ((s.writeReg r v).withCpsr q).drawn = (s.drawn.withCpsr q).writeReg r v := by
  have hmode : (s.drawn.withCpsr q).mode = s.mode := by rw [State.mode, State.withCpsr_cpsr, hm, State.mode]
  unfold State.writeReg
  split
  · rfl
  · simp only [hmode]
    rfl

/-- A register written, with S = 1 the flags `q` after it, and the advance. -/
theorem writeReg_flags_frame {rd : Reg} (hd : rd ≠ 15) (f : Bool) (s : State) {q : Psr} (v : Word)
    (control : controlKept s (s.withCpsr q)) :
    let t := if f then (((s.writeReg rd v).withCpsr q).drawn).advance else (s.writeReg rd v).advance
    t.cpsr = (if f then q else s.cpsr) ∧
    t.readReg rd = v ∧ regsKeptBut [regIndex s.mode rd] s t ∧ bytesKept s t ∧ restKept s t ∧ inSequence s t := by
  cases f with
  | true =>
    have ⟨_, _, _, _, hm⟩ := control
    rw [if_pos rfl, drawn_withCpsr_writeReg s (q := q) hm]
    exact ⟨by simp, advance_writeReg_frame hd s.drawn v control⟩
  | false => exact ⟨by simp, advance_writeReg_frame hd s (q := s.cpsr) v ⟨rfl, rfl, rfl, rfl, rfl⟩⟩

/-- RdLo is written first, and the write of RdHi, another register, leaves it. -/
theorem writeReg_pair_flags_frame {rdHi rdLo : Reg} (hHi : rdHi ≠ 15) (hLo : rdLo ≠ 15) (hne : rdHi ≠ rdLo) (f : Bool)
    (s : State) {q : Psr} (high low : Word) (control : controlKept s (s.withCpsr q)) :
    let u := (s.writeReg rdLo low).writeReg rdHi high
    let t := if f then ((u.withCpsr q).drawn).advance else u.advance
    t.cpsr = (if f then q else s.cpsr) ∧ t.readReg rdHi = high ∧ t.readReg rdLo = low ∧
      regsKeptBut [regIndex s.mode rdHi, regIndex s.mode rdLo] s t ∧ bytesKept s t ∧ restKept s t ∧ inSequence s t := by
  have hcpsr : (s.writeReg rdLo low).cpsr = s.cpsr := by simp
  have hmode : (s.writeReg rdLo low).mode = s.mode := State.mode_congr hcpsr
  obtain ⟨cpsr, value, regs, bytes, rest, sequence⟩ := writeReg_flags_frame hHi f (s.writeReg rdLo low) (q := q) high
    (by simpa [controlKept] using control)
  have apart : regIndex (s.writeReg rdLo low).mode rdLo ∉ [regIndex (s.writeReg rdLo low).mode rdHi] := by
    simpa using fun e => hne (regIndex_injective _ hLo hHi e).symm
  have kept := State.readReg_congr hLo (mode_of_controlKept rest.1) (regs _ apart)
  rw [hcpsr] at cpsr
  rw [hmode] at regs
  exact ⟨cpsr, value, kept.trans (State.readReg_writeReg_same hLo s low), regsKeptBut_of_writeReg regs,
    bytesKept_of_writeReg bytes, restKept_of_writeReg rest, inSequence_of_writeReg sequence⟩

/-- The flags of a product are known by the CPSR it leaves. -/
theorem productFlags_of_cpsr {f neg zero keepV : Bool} {q : Psr} {s t : State} (h : t.cpsr = if f then q else s.cpsr)
    (hn : q.n = neg) (hz : q.z = zero) (hv : keepV = true → q.v = s.cpsr.v) : productFlags f neg zero keepV s t := by
  cases f with
  | true =>
    obtain rfl : t.cpsr = q := h
    exact ⟨hn, hz, hv⟩
  | false =>
    have same : t.cpsr = s.cpsr := h
    simp [productFlags, flagsKept, same]

theorem multiplied_writeProduct {rd : Reg} (hd : rd ≠ 15) (f : Bool) (v : Word) (s : State) :
    multiplied f rd v s (writeProduct f rd v s) := by
  obtain ⟨cpsr, value, regs, bytes, rest, sequence⟩ := writeReg_flags_frame hd f s
    (q := s.cpsr.withProduct v (Config.mulCarry s.draws)) v ⟨rfl, rfl, rfl, rfl, rfl⟩
  exact ⟨value, regs, productFlags_of_cpsr cpsr rfl rfl fun _ => rfl, bytes, rest, sequence⟩

/-- The two words of a doubleword put together again are the doubleword. -/
theorem doubleword_of_words (v : BitVec 64) : v.extractLsb' 32 32 ++ v.extractLsb' 0 32 = v :=
  (BitVec.extractLsb'_append_extractLsb'_eq_extractLsb' rfl).trans BitVec.extractLsb'_eq_self

theorem longMultiplied_writeLongProduct {rdHi rdLo : Reg} (hHi : rdHi ≠ 15) (hLo : rdLo ≠ 15) (hne : rdHi ≠ rdLo)
    (f : Bool) (v : BitVec 64) (s : State) :
    longMultiplied f rdHi rdLo v s (writeLongProduct f rdHi rdLo v s) := by
  obtain ⟨cpsr, high, low, regs, bytes, rest, sequence⟩ := writeReg_pair_flags_frame hHi hLo hne f s
    (q := s.cpsr.withLongProduct v (Config.longCarry s.draws) (Config.longOverflow s.draws)) (v.extractLsb' 32 32)
    (v.extractLsb' 0 32) ⟨rfl, rfl, rfl, rfl, rfl⟩
  have value := (congrArg₂ (· ++ ·) high low).trans (doubleword_of_words v)
  exact ⟨value, regs, productFlags_of_cpsr cpsr rfl rfl nofun, bytes, rest, sequence⟩

/-! ## The registers refused (R190, R193) -/

theorem sameRefusal_of_ne {a b : Reg} (h : a ≠ b) : sameRefusal a b = none := if_neg h

theorem sameRefusal_self (a : Reg) : sameRefusal a a = some .sameRegister := if_pos rfl

theorem pcRefusal_three {a b d : Reg} (ha : a ≠ 15) (hb : b ≠ 15) (hd : d ≠ 15) : pcRefusal [a, b, d] = none := by
  simp only [pcRefusal_eq_none_iff, List.mem_cons, List.not_mem_nil, or_false, not_or]
  exact ⟨ha.symm, hb.symm, hd.symm⟩

theorem pcRefusal_four {a b d e : Reg} (ha : a ≠ 15) (hb : b ≠ 15) (hd : d ≠ 15) (he : e ≠ 15) :
    pcRefusal [a, b, d, e] = none :=
  (pcRefusal_eq_none_iff _).2 <| List.not_mem_cons_of_ne_of_not_mem ha.symm <|
    (pcRefusal_eq_none_iff _).1 (pcRefusal_three hb hd he)

theorem longRefusal_of_allowed {rdHi rdLo rs rm : Reg} (h : longAllowed rdHi rdLo rs rm) :
    longRefusal rdHi rdLo rs rm = none := by
  obtain ⟨hHi, hLo, hs, hm, hHiLo, hHiM, hLoM⟩ := h
  rw [longRefusal, pcRefusal_four hHi hLo hs hm, sameRefusal_of_ne hHiLo, sameRefusal_of_ne hHiM,
    sameRefusal_of_ne hLoM]
  rfl

theorem longRefusal_of_pc {rdHi rdLo rs rm : Reg} (h : 15 ∈ [rdHi, rdLo, rs, rm]) :
    longRefusal rdHi rdLo rs rm = some .pcOperand := by
  rw [longRefusal, pcRefusal_of_mem h]
  rfl

theorem longRefusal_of_same {rdHi rdLo rs rm : Reg} (hpc : pcRefusal [rdHi, rdLo, rs, rm] = none)
    (h : rdHi = rdLo ∨ rdHi = rm ∨ rdLo = rm) : longRefusal rdHi rdLo rs rm = some .sameRegister := by
  rw [longRefusal, hpc]
  by_cases hHiLo : rdHi = rdLo
  · rw [hHiLo, sameRefusal_self]
    rfl
  · rw [sameRefusal_of_ne hHiLo]
    by_cases hHiM : rdHi = rm
    · rw [hHiM, sameRefusal_self]
      rfl
    · rw [sameRefusal_of_ne hHiM, (h.resolve_left hHiLo).resolve_left hHiM, sameRefusal_self]
      rfl

/-! ## MUL and MLA (R190 to R192) -/

section
variable {i : Instr} {c : Cond} {f : Bool} {rd rm : Reg} {rs : List Reg} {v : Word} {s : State}
  (hi : exec i s = conditional c s (guarded (pcRefusal (rd :: rs)) (guarded (sameRefusal rd rm)
    (.next (writeProduct f rd v s)))))
include hi

theorem multiply_completes (hc : condHolds c s.cpsr = true) (hpc : pcRefusal (rd :: rs) = none) (hne : rd ≠ rm) :
    ∃ t, exec i s = .next t ∧ multiplied f rd v s t := by
  have hd : rd ≠ 15 := (List.ne_of_not_mem_cons ((pcRefusal_eq_none_iff _).1 hpc)).symm
  refine ⟨_, ?_, multiplied_writeProduct hd f v s⟩
  rw [hi, conditional_pass hc, hpc, sameRefusal_of_ne hne]
  rfl

theorem multiply_pcOperand (hc : condHolds c s.cpsr = true) (hpc : 15 ∈ rd :: rs) :
    exec i s = .refused .pcOperand := by
  rw [hi, conditional_pass hc, pcRefusal_of_mem hpc]
  rfl

theorem multiply_sameRegister (hc : condHolds c s.cpsr = true) (hpc : pcRefusal (rd :: rs) = none) (h : rd = rm) :
    exec i s = .refused .sameRegister := by
  rw [hi, conditional_pass hc, hpc, h, sameRefusal_self]
  rfl

end

/-- The sum of a product and a word is that of their values modulo 2^32. -/
theorem mul_add_eq_ofNat (a b d : Word) : a * b + d = BitVec.ofNat 32 (a.toNat * b.toNat + d.toNat) := by
  simp only [BitVec.ofNat_add, BitVec.ofNat_mul, BitVec.ofNat_toNat, BitVec.setWidth_eq]

/-! ## The Thumb MUL (47 R293) -/

theorem lowReg_ne_pc (r : LowReg) : lowReg r ≠ 15 := by
  revert r; decide

theorem lowReg_injective {a b : LowReg} (h : lowReg a = lowReg b) : a = b := by
  revert a b; decide

theorem exec_tMul (ls ld : LowReg) (s : State) :
    exec (.tMul ls ld) s = guarded (sameRefusal (lowReg ld) (lowReg ls))
      (.next (writeProduct true (lowReg ld) (s.readReg (lowReg ld) * s.readReg (lowReg ls)) s)) := rfl

theorem exec_tMul_apart {ls ld : LowReg} (h : ls ≠ ld) (s : State) :
    exec (.tMul ls ld) s = .next (writeProduct true (lowReg ld)
      (s.readReg (lowReg ld) * s.readReg (lowReg ls)) s) := by
  rw [exec_tMul, sameRefusal_of_ne fun e => h (lowReg_injective e).symm]
  rfl

theorem exec_tMul_self (r : LowReg) (s : State) : exec (.tMul r r) s = .refused .sameRegister := by
  rw [exec_tMul, sameRefusal_self]
  rfl

/-- Settles O34: with nothing to refuse, each writes its product; a product of words is that of their values modulo 2^32
by definition. -/
theorem multiplyEffect : Obligations.MultiplyEffect := by
  unfold Obligations.MultiplyEffect
  intro c f rd rn rs rm s hc hd hs hm hne p
  refine ⟨?_, fun hn => ?_, fun ls ld h => ?_⟩
  · exact multiply_completes (rs := [rs, rm]) rfl hc (pcRefusal_three hd hs hm) hne
  · rw [← mul_add_eq_ofNat]
    exact multiply_completes (rs := [rn, rs, rm]) rfl hc (pcRefusal_four hd hn hs hm) hne
  · exact ⟨_, exec_tMul_apart h s, multiplied_writeProduct (lowReg_ne_pc ld) true _ s⟩

/-! ## The long multiplies (R193 to R197) -/

section
variable {i : Instr} {c : Cond} {f : Bool} {rdHi rdLo rs rm : Reg} {s : State}

theorem longMultiply_completes {v : BitVec 64}
    (hi : exec i s = conditional c s (guarded (longRefusal rdHi rdLo rs rm)
      (.next (writeLongProduct f rdHi rdLo v s))))
    (hc : condHolds c s.cpsr = true) (h : longAllowed rdHi rdLo rs rm) :
    ∃ t, exec i s = .next t ∧ longMultiplied f rdHi rdLo v s t := by
  have ⟨hHi, hLo, _, _, hHiLo, _, _⟩ := h
  refine ⟨_, ?_, longMultiplied_writeLongProduct hHi hLo hHiLo f v s⟩
  rw [hi, conditional_pass hc, longRefusal_of_allowed h]
  rfl

theorem longMultiply_refused {body : Result} {x : Refusal}
    (hi : exec i s = conditional c s (guarded (longRefusal rdHi rdLo rs rm) body))
    (hc : condHolds c s.cpsr = true) (h : longRefusal rdHi rdLo rs rm = some x) : exec i s = .refused x := by
  rw [hi, conditional_pass hc, h]
  rfl

end

/-- Settles O35: with nothing to refuse, each writes its 64 bits. -/
theorem longMultiplyEffect : Obligations.LongMultiplyEffect := by
  unfold Obligations.LongMultiplyEffect
  intro c f rdHi rdLo rs rm s hc h a b acc gives
  exact ⟨longMultiply_completes rfl hc h, longMultiply_completes rfl hc h, longMultiply_completes rfl hc h,
    longMultiply_completes rfl hc h⟩

/-- Settles O36: the list of registers is looked at for r15 before two of them are compared. -/
theorem multiplyRefusals : Obligations.MultiplyRefusals := by
  unfold Obligations.MultiplyRefusals
  intro c f rd rn rs rm low s hc long
  have long_of_refusal : ∀ x, longRefusal rd rn rs rm = some x → long x := fun x h =>
    ⟨longMultiply_refused rfl hc h, longMultiply_refused rfl hc h, longMultiply_refused rfl hc h,
      longMultiply_refused rfl hc h⟩
  refine ⟨fun h => ?_, fun h => ?_, fun hd hn hs hm => ⟨fun h => ?_, fun h => ?_⟩, exec_tMul_self low s⟩
  · exact multiply_pcOperand (rs := [rs, rm]) rfl hc (by simpa [eq_comm] using h)
  · have named : 15 ∈ [rd, rn, rs, rm] := by simpa [eq_comm] using h
    exact ⟨multiply_pcOperand rfl hc named, long_of_refusal _ (longRefusal_of_pc named)⟩
  · exact ⟨multiply_sameRegister (rs := [rs, rm]) rfl hc (pcRefusal_three hd hs hm) h,
      multiply_sameRegister (rs := [rn, rs, rm]) rfl hc (pcRefusal_four hd hn hs hm) h⟩
  · exact long_of_refusal _ (longRefusal_of_same (pcRefusal_four hd hn hs hm) h)

end Sys2Proof.Machine
end

section
/-! SUPPORT. The single transfers, ARM and Thumb (44_arm_load_store.md R201 to R218, 48_thumb_load_store.md R310 to
R327): each is the access that its form describes, which is refused, aborts, faults, or is made. -/

namespace Sys2Proof.Machine

/-! ## What the form of a transfer says, in the terms of the model -/

/-- The address and the write-back of a transfer as the model computes them (R202). -/
def Transfer.target (x : Transfer) : Address := addressOf x.p x.u x.w x.base x.off

theorem Transfer.target_address (x : Transfer) : x.target.address = x.address := by
  unfold Transfer.target Transfer.address addressOf
  cases x.p <;> rfl

theorem Transfer.target_writeBack (x : Transfer) :
    x.target.writeBack = if x.writesBack then some x.index else none := by
  unfold Transfer.target Transfer.writesBack addressOf
  cases x.p <;> cases x.w <;> rfl

/-- The combinations that 44 R203 and R214 refuse. -/
def Transfer.refusal (x : Transfer) : Option Refusal := transferRefusal x.writesBack x.noPc x.rn x.rd x.rm

theorem Transfer.refusal_of_namesPc {x : Transfer} (h : x.namesPc) : x.refusal = some .pcOperand := by
  unfold Transfer.refusal transferRefusal
  obtain offset | ⟨forbidden, hd⟩ | ⟨back, hn⟩ := h
  · rw [if_pos offset]
  · simp [forbidden, hd]
  · simp [back, hn]

/-- Without r15 where it is forbidden, what is left to refuse are the clashes of a write-back. -/
theorem Transfer.refusal_of_not_namesPc {x : Transfer} (h : ¬ x.namesPc) :
    x.refusal = if x.writesBack && (x.rd == x.rn || x.rm == some x.rn) then some .writeBack else none := by
  have ⟨offset, destination, base⟩ :
      x.rm ≠ some 15 ∧ ¬ (x.noPc && x.rd == 15) ∧ ¬ (x.writesBack && x.rn == 15) := by
    simpa [Transfer.namesPc] using h
  rw [Transfer.refusal, transferRefusal, if_neg offset, if_neg destination, if_neg base]
  cases x.writesBack <;> cases x.rd == x.rn <;> rfl

theorem Transfer.clashes_iff (x : Transfer) :
    x.clashes ↔ (x.writesBack && (x.rd == x.rn || x.rm == some x.rn)) = true := by
  simp [Transfer.clashes]

theorem Transfer.refusal_of_clashes {x : Transfer} (h : ¬ x.namesPc) (hc : x.clashes) :
    x.refusal = some .writeBack := by
  rw [Transfer.refusal_of_not_namesPc h, if_pos (x.clashes_iff.1 hc)]

theorem Transfer.refusal_eq_none {x : Transfer} (h : ¬ x.namesPc) (hc : ¬ x.clashes) : x.refusal = none := by
  rw [Transfer.refusal_of_not_namesPc h, if_neg (mt x.clashes_iff.2 hc)]

theorem Transfer.odd_iff (x : Transfer) : (decide (x.size = 2) && x.address.getLsbD 0) = true ↔ x.odd := by
  rw [Bool.and_eq_true, decide_eq_true_eq, getLsbD_zero_iff, Transfer.odd]

theorem Transfer.oddRefusal_of_odd {x : Transfer} (h : x.odd) : oddRefusal x.size x.address = some .oddHalfword :=
  if_pos (x.odd_iff.2 h)

theorem Transfer.oddRefusal_eq_none {x : Transfer} (h : ¬ x.odd) : oddRefusal x.size x.address = none :=
  if_neg (mt x.odd_iff.1 h)

/-- Bits 1:0 cleared by a mask are bits 1:0 cleared by a division. -/
theorem wordAligned_eq_lowTwoCleared (a : Word) : wordAligned a = lowTwoCleared a :=
  BitVec.eq_of_toNat_eq <| by
    rw [wordAligned_toNat, lowTwoCleared, BitVec.toNat_ofNat, Nat.mod_eq_of_lt (by have := a.isLt; omega)]

theorem Transfer.answer_eq (x : Transfer) (s : State) :
    x.answer s = s.access x.kind x.priv (busAddress x.size x.address) x.size := by
  rw [busAddress, wordAligned_eq_lowTwoCleared]
  rfl

/-! ## What two changes one after the other leave -/

theorem regsKeptBut.trans {s t u : State} {js ks : List (Fin 30)} (h : regsKeptBut ks s t) (h' : regsKeptBut js t u) :
    regsKeptBut (js ++ ks) s u := by
  intro k hk
  have ⟨hj, hk⟩ : k ∉ js ∧ k ∉ ks := by simpa using hk
  exact (h' k hj).trans (h k hk)

theorem bytesKept.trans {s t u : State} (h : bytesKept s t) (h' : bytesKept t u) : bytesKept s u :=
  fun a => (h' a).trans (h a)

theorem restKept.trans {s t u : State} (h : restKept s t) (h' : restKept t u) : restKept s u := by
  simp_all [restKept, controlKept, spsrsKept, outsideKept]

theorem flagsKept_of_cpsr {s t : State} (h : t.cpsr = s.cpsr) : flagsKept s t := by
  simp [flagsKept, h]

/-! ## The base written back -/

theorem Transfer.based_eq (x : Transfer) (s : State) : x.based s = s.writtenBack x.rn x.target.writeBack := by
  rw [Transfer.based, x.target_writeBack]
  cases x.writesBack <;> rfl

theorem Transfer.mode_based (x : Transfer) (s : State) : (x.based s).mode = s.mode :=
  State.mode_congr (by simp [Transfer.based_eq])

/-- A base written back is not r15, where no r15 is named that the rule forbids. -/
theorem Transfer.rn_ne_pc {x : Transfer} (h : ¬ x.namesPc) (hw : x.writesBack = true) : x.rn ≠ 15 :=
  fun e => h (.inr (.inr ⟨hw, e⟩))

/-- The base reads as the index. -/
theorem Transfer.readReg_based {x : Transfer} (h : ¬ x.namesPc) (hw : x.writesBack = true) (s : State) :
    (x.based s).readReg x.rn = x.index := by
  rw [Transfer.based, if_pos hw, State.readReg_writeReg_same (Transfer.rn_ne_pc h hw)]

/-- Every register but the base is as it was. -/
theorem Transfer.regsKeptBut_based (x : Transfer) (s : State) : regsKeptBut (x.basePlaces s) s (x.based s) := by
  unfold Transfer.based Transfer.basePlaces
  cases x.writesBack with
  | true => exact fun k hk => State.regs_writeReg_of_ne s _ (by simpa using hk)
  | false => exact fun _ _ => rfl

theorem Transfer.bytesKept_based (x : Transfer) (s : State) : bytesKept s (x.based s) :=
  fun a => by simp [Transfer.based_eq, State.readByte]

theorem Transfer.restKept_based (x : Transfer) (s : State) : restKept s (x.based s) := by
  simp [Transfer.based_eq, restKept, controlKept, spsrsKept, outsideKept]

/-- What is in sequence after the write-back is in sequence. -/
theorem Transfer.inSequence_of_based {x : Transfer} {s t : State} (h : inSequence (x.based s) t) : inSequence s t := by
  simpa [Transfer.based_eq, inSequence, followsOnPlain, followsOn, nothingStored] using h

/-! ## Every single transfer is the access of its form -/

/-- The load or the store that a transfer is, its operands allowed. -/
def Transfer.transferred (x : Transfer) (s : State) : Result :=
  match x.op with
  | .load k => load k x.priv x.rn x.rd x.target s
  | .store k => store k x.priv x.rn (s.storedReg x.rd) x.target s

/-- A word or byte form in the layout of R200. -/
theorem exec_wordOrByteTransfer {i : Instr} {s : State} {x : Transfer} (h : wordOrByteTransfer i s = some x) :
    exec i s = conditional x.c s (guarded x.refusal (x.transferred s)) := by
  unfold wordOrByteTransfer at h
  split at h <;> cases h <;> rfl

/-- A halfword or signed form in the layout of R214, which looks at P and W first. -/
theorem exec_halfOrSignedTransfer {i : Instr} {s : State} {x : Transfer} (h : halfOrSignedTransfer i s = some x) :
    exec i s = conditional x.c s (guarded (postIndexRefusal x.p x.w) (guarded x.refusal (x.transferred s))) := by
  unfold halfOrSignedTransfer at h
  split at h <;> cases h <;> rfl

theorem State.storedReg_lowReg (s : State) (r : LowReg) : s.storedReg (lowReg r) = s.readReg (lowReg r) :=
  if_neg (lowReg_ne_pc r)

/-- A Thumb load or store of `rd` at `a`. -/
def thumbTransferred (op : TransferOp) (rd : LowReg) (a : Word) (s : State) : Result :=
  match op with
  | .load k => thumbLoad k rd a s
  | .store k => thumbStore k rd a s

/-- A Thumb form has no condition and nothing to refuse (48 R310). -/
theorem exec_of_thumbTransferred {i : Instr} {op : TransferOp} {rd : LowReg} {base off a : Word} {s : State}
    {x : Transfer}
    (hx : ⟨op, s.privilege, .al, true, true, false, 0, lowReg rd, base, off, none, false⟩ = x)
    (hi : exec i s = thumbTransferred op rd a s) (ha : a = base + off) :
    exec i s = conditional x.c s (guarded x.refusal (x.transferred s)) := by
  subst hx ha
  rw [hi]
  cases op with
  | load k => rfl
  | store k =>
    rw [thumbTransferred, thumbStore, ← State.storedReg_lowReg]
    rfl

theorem shiftLeft_one_eq_mul (x : Word) : x <<< 1 = x * 2 := BitVec.shiftLeft_eq_mul_twoPow x 1

theorem shiftLeft_two_eq_mul (x : Word) : x <<< 2 = x * 4 := BitVec.shiftLeft_eq_mul_twoPow x 2

/-- A Thumb form: its address is its base plus its offset, shifted into place (30 R116). -/
theorem exec_thumbTransfer {i : Instr} {s : State} {x : Transfer} (h : thumbTransfer i s = some x) :
    exec i s = conditional x.c s (guarded x.refusal (x.transferred s)) := by
  unfold thumbTransfer at h
  split at h
  case h_18 => cases h
  all_goals
    refine exec_of_thumbTransferred (Option.some.inj h) rfl ?_
    simp only [State.addressReg, State.addressImm, shiftLeft_one_eq_mul, shiftLeft_two_eq_mul, BitVec.shiftLeft_zero]

/-- Every single transfer: its condition, the combinations it refuses, the load or store. -/
theorem exec_singleTransfer {i : Instr} {s : State} {x : Transfer} (h : singleTransfer i s = some x) :
    exec i s = conditional x.c s (guarded x.refusal (x.transferred s)) := by
  unfold singleTransfer at h
  split at h
  case h_1 y word =>
    cases h
    exact exec_wordOrByteTransfer word
  case h_2 =>
    split at h
    case h_1 y half =>
      split at h
      · cases h
      · rename_i indexed
        cases h
        rw [exec_halfOrSignedTransfer half, postIndexRefusal, if_neg indexed]
        rfl
    case h_2 => exact exec_thumbTransfer h

/-! ## What a transfer answers -/

/-- A transfer the platform grants: a load of `rd`, a jump for r15, or a store, with the base written back. -/
def Transfer.completed (x : Transfer) (s : State) : State :=
  match x.op with
  | .load k =>
    if x.rd = 15 then (x.based s).branchTo (wordAligned (s.loaded k x.address))
    else ((x.based s).writeReg x.rd (s.loaded k x.address)).advance
  | .store k => (x.based (s.stored k x.address (s.storedReg x.rd))).advance

/-- What a transfer answers to the platform's answer, an odd halfword address refused before. -/
def Transfer.answered (x : Transfer) (s : State) : Grant → Result
  | .unmapped => .fault .unmapped
  | .aborted => raised .dataAbort takeDataAbort (x.based s)
  | .granted => .next (x.completed s)

theorem Transfer.transferred_eq (x : Transfer) (s : State) :
    x.transferred s = guarded (oddRefusal x.size x.address) (x.answered s (x.answer s)) := by
  rw [x.answer_eq, Transfer.transferred]
  simp only [Transfer.size, Transfer.kind]
  cases hop : x.op with
  | load k =>
    simp only [load, x.target_address, ← x.based_eq]
    congr 1
    cases s.access .read x.priv (busAddress k.size x.address) k.size <;>
      simp only [Transfer.answered, Transfer.completed, hop]
    split <;> rfl
  | store k =>
    simp only [store, x.target_address, ← x.based_eq]
    congr 1
    cases s.access .write x.priv (busAddress k.size x.address) k.size <;>
      simp only [Transfer.answered, Transfer.completed, hop]

section
variable {i : Instr} {s : State} {x : Transfer} (hi : singleTransfer i s = some x)
include hi

theorem exec_singleTransfer_pass (hc : condHolds x.c s.cpsr = true) :
    exec i s = guarded x.refusal (guarded (oddRefusal x.size x.address) (x.answered s (x.answer s))) := by
  rw [exec_singleTransfer hi, conditional_pass hc, x.transferred_eq]

/-- On allowed operands the platform's answer decides. -/
theorem exec_singleTransfer_allowed (ha : x.allowed s) : exec i s = x.answered s (x.answer s) := by
  obtain ⟨hc, pc, clash, odd⟩ := ha
  rw [exec_singleTransfer_pass hi hc, Transfer.refusal_eq_none pc clash, Transfer.oddRefusal_eq_none odd]
  rfl

theorem exec_singleTransfer_granted (ha : x.allowed s) (hg : x.answer s = .granted) :
    exec i s = .next (x.completed s) := by
  rw [exec_singleTransfer_allowed hi ha, hg]
  rfl

end

/-! ## Loads -/

theorem toNat_extractLsb'_two (a : Word) : (a.extractLsb' 0 2).toNat = a.toNat % 4 := by
  simp [BitVec.extractLsb'_toNat]

/-- The value that a load gives is the one its rule says. -/
theorem specLoaded_loaded (k : LoadKind) (a : Word) (s : State) : specLoaded k a s (s.loaded k a) := by
  cases k with
  | word =>
    rw [specLoaded, State.loaded, State.readRotated, toNat_extractLsb'_two, wordAligned_eq_lowTwoCleared]
    rfl
  | byte => exact BitVec.toNat_setWidth_of_le (by omega)
  | signedByte => exact BitVec.toInt_signExtend_of_le (by omega)
  | half => exact BitVec.toNat_setWidth_of_le (by omega)
  | signedHalf => exact BitVec.toInt_signExtend_of_le (by omega)

/-- A granted load of a register other than r15. -/
theorem Transfer.completed_load {x : Transfer} {k : LoadKind} (hop : x.op = .load k) (hd : x.rd ≠ 15) (s : State) :
    x.completed s = ((x.based s).writeReg x.rd (s.loaded k x.address)).advance := by
  simp only [Transfer.completed, hop, if_neg hd]

/-- A granted load of r15. -/
theorem Transfer.completed_load_pc {x : Transfer} {k : LoadKind} (hop : x.op = .load k) (hd : x.rd = 15) (s : State) :
    x.completed s = (x.based s).branchTo (lowTwoCleared (s.loaded k x.address)) := by
  simp only [Transfer.completed, hop, if_pos hd, wordAligned_eq_lowTwoCleared]

/-- Settles O38: the register is written after the base, which is another one. -/
theorem singleLoads : Obligations.SingleLoads := by
  unfold Obligations.SingleLoads
  intro i s x k hi hop ha hg hd
  have ⟨_, pc, clash, _⟩ := ha
  refine ⟨_, exec_singleTransfer_granted hi ha hg, ?_⟩
  rw [Transfer.completed_load hop hd]
  obtain ⟨value, regs, bytes, rest, sequence⟩ :=
    advance_writeReg_frame hd (x.based s) (s.loaded k x.address) (q := (x.based s).cpsr) ⟨rfl, rfl, rfl, rfl, rfl⟩
  rw [x.mode_based] at regs
  refine ⟨(congrArg _ value).mpr (specLoaded_loaded k x.address s), fun hw => ?_, (x.regsKeptBut_based s).trans regs,
    flagsKept_of_cpsr (by simp [x.based_eq]), (x.bytesKept_based s).trans bytes, (x.restKept_based s).trans rest,
    Transfer.inSequence_of_based sequence⟩
  have apart : x.rn ≠ x.rd := fun e => clash ⟨hw, .inl e.symm⟩
  rw [State.readReg_advance (Transfer.rn_ne_pc pc hw), State.readReg_writeReg_of_ne _ _ apart,
    Transfer.readReg_based pc hw]

/-- Settles O39: the pc is written after the base. -/
theorem loadToPc : Obligations.LoadToPc := by
  unfold Obligations.LoadToPc
  intro i s x k hi hop ha hg hd
  have ⟨_, pc, _, _⟩ := ha
  refine ⟨_, s.loaded k x.address, exec_singleTransfer_granted hi ha hg, specLoaded_loaded k x.address s, ?_⟩
  rw [Transfer.completed_load_pc hop hd]
  obtain ⟨went, regs, -, bytes, rest⟩ := jumped_branchTo (lowTwoCleared (s.loaded k x.address)) (x.based s)
  refine ⟨went, fun hw => ?_, (x.regsKeptBut_based s).trans regs, flagsKept_of_cpsr (by simp [x.based_eq]),
    (x.bytesKept_based s).trans bytes, (x.restKept_based s).trans rest⟩
  rw [State.readReg_branchTo (Transfer.rn_ne_pc pc hw), Transfer.readReg_based pc hw]

/-! ## Stores -/

/-- What is in memory and on record after a store is what its rule says. -/
theorem specStored_stored {k : StoreKind} {a v : Word} {s t : State} (hs : s.mem.wf = true)
    (hm : t.mem = (s.stored k a v).mem) (hp : t.plat = s.plat)
    (hr : t.recentStores = (s.stored k a v).currentStores) : specStored k a v s t := by
  have bytes (b : Nat) : t.readByte b = (s.stored k a v).readByte b := by rw [State.readByte, hm, State.readByte]
  have plat : t.plat = (s.stored k a v).plat := by simpa using hp
  cases k with
  | word =>
    have first : (wordAligned a).toNat = a.toNat / 4 * 4 := wordAligned_toNat a
    refine ⟨?_, fun b hb => ?_, ?_⟩
    · have back := State.readWord_congr plat (wordAligned a) fun k _ => bytes _
      rw [State.stored, State.readWord_writeWord_same hs (wordAligned_lt a), wordAligned_eq_lowTwoCleared] at back
      exact back
    · rw [bytes, State.stored, State.readByte_writeWord_of_ne _ _ _ (by rwa [first])]
    · rw [hr, State.stored, State.currentStores_writeWord, first]
      rfl
  | byte =>
    refine ⟨?_, fun b hb => ?_, hr⟩
    · rw [bytes]
      exact Memory.readByte_writeByte_same hs _ _
    · rw [bytes]
      exact Memory.readByte_writeByte_of_ne _ (by omega) _
  | half =>
    refine ⟨?_, fun b hb => ?_, ?_⟩
    · have back : t.readHalf a = (s.writeHalf a (v.setWidth 16)).readHalf a := by
        simp only [State.readHalf, bytes, plat]
        rfl
      rw [back, State.readHalf_writeHalf_same hs]
    · rw [bytes, State.stored, State.readByte_writeHalf_of_ne _ _ _ hb]
    · rw [hr, State.stored, State.currentStores_writeHalf]
      rfl

/-- A granted store. -/
theorem Transfer.completed_store {x : Transfer} {k : StoreKind} (hop : x.op = .store k) (s : State) :
    x.completed s = (x.based (s.stored k x.address (specStoredValue x.rd s))).advance := by
  simp only [Transfer.completed, hop]
  rfl

/-- An advance with the pc, T and the stores of the last instruction as they were, whatever this one has stored. -/
theorem followsOnPlain_advance {s u : State} (hc : u.cur = s.cur) (ht : u.cpsr.t = s.cpsr.t)
    (hr : u.recentStores = s.recentStores) : followsOnPlain s u.advance :=
  have ⟨follows, _⟩ := inSequence_advance (s := { s with currentStores := u.currentStores }) hc ht hr rfl
  follows

/-- A store leaves the mode as it is. -/
theorem State.mode_stored (s : State) (k : StoreKind) (a v : Word) : (s.stored k a v).mode = s.mode :=
  State.mode_congr (by simp)

/-- Settles O40: the base is written after memory, and the two meet in no field of the state. -/
theorem singleStores : Obligations.SingleStores := by
  unfold Obligations.SingleStores
  intro i s x k hi hop ha hg hs
  have ⟨_, pc, _, _⟩ := ha
  refine ⟨_, exec_singleTransfer_granted hi ha hg, ?_⟩
  rw [Transfer.completed_store hop]
  have regs := x.regsKeptBut_based (s.stored k x.address (specStoredValue x.rd s))
  rw [Transfer.basePlaces, State.mode_stored] at regs
  refine ⟨specStored_stored hs (by simp [x.based_eq]) (by simp [x.based_eq]) (by simp [x.based_eq]), fun hw => ?_,
    fun j hj => (regs j hj).trans (by simp), flagsKept_of_cpsr (by simp [x.based_eq]),
    by simp [x.based_eq, restKept, controlKept, spsrsKept, outsideKept], ?_⟩
  · rw [State.readReg_advance (Transfer.rn_ne_pc pc hw), Transfer.readReg_based pc hw]
  · exact followsOnPlain_advance (by simp [x.based_eq]) (by simp [x.based_eq]) (by simp [x.based_eq])

/-! ## Data Abort (60 R360, R367) -/

/-- The entry of an exception writes r14 and the SPSR of its mode, the status and the pc, and nothing else. -/
theorem entered_enterException (e : Exception) (ret : Word) (s : State) :
    entered e.mode e.mode.bits e.vector e.masksFiq ret s (enterException e ret s) := by
  refine ⟨rfl, ⟨rfl, rfl, rfl, rfl⟩, rfl, enterException_spsr e ret s, fun n hn => ?_, ?_, fun k hk => ?_, ?_, ?_⟩
  · exact State.spsrOf_setSpsrOf_of_ne { s with regs := _ } hn s.cpsr
  · rw [enterException_regs]
    exact Vector.getElem_set_self _
  · rw [enterException_regs]
    exact regs_set_of_ne s (by simpa using hk) ret
  · exact fun a => by simp [State.readByte]
  · exact ⟨by simp, by simp, by simp, by simp⟩

/-- Settles O41: an aborted transfer writes the base back and raises a Data Abort, refused right after a User-bank
transfer in Abort mode. -/
theorem singleTransferAbort : Obligations.SingleTransferAbort := by
  unfold Obligations.SingleTransferAbort
  intro i s x hi ha hg
  have raises : exec i s = raised .dataAbort takeDataAbort (x.based s) := by
    rw [exec_singleTransfer_allowed hi ha, hg]
    rfl
  have mark : (x.based s).afterUserBank = s.afterUserBank := by simp [x.based_eq]
  rw [raises]
  refine ⟨fun own => ⟨_, raised_taken (by rwa [mark, x.mode_based]) takeDataAbort, ?_, rfl⟩, fun own => ?_⟩
  · exact entered_enterException .dataAbort _ (x.based s)
  · obtain ⟨after, mode⟩ := own
    exact raised_refused (e := .dataAbort) (mark.trans after) ((x.mode_based s).trans mode) takeDataAbort

/-! ## Where a transfer stops -/

/-- Settles O42: the checks in the order in which the model makes them. -/
theorem singleTransferStops : Obligations.SingleTransferStops := by
  unfold Obligations.SingleTransferStops
  refine ⟨fun i s x hi hc => ?_, fun i s x hi hc hp hw => ?_⟩
  · rw [exec_singleTransfer_pass hi hc]
    refine ⟨fun pc => ?_, fun pc clash => ?_, fun pc clash odd => ?_, fun ha hg => ?_⟩
    · rw [Transfer.refusal_of_namesPc pc]
      rfl
    · rw [Transfer.refusal_of_clashes pc clash]
      rfl
    · rw [Transfer.refusal_eq_none pc clash, Transfer.oddRefusal_of_odd odd]
      rfl
    · rw [← exec_singleTransfer_pass hi hc, exec_singleTransfer_allowed hi ha, hg]
      rfl
  · rw [exec_halfOrSignedTransfer hi, conditional_pass hc, hp, hw]
    rfl

end Sys2Proof.Machine
end

section
/-! SUPPORT. The parts of a block transfer (45_arm_block_transfer.md R231 to R239, 20_memory.md R81): the registers of a
list, the addresses, the words read and the registers they go to, the words stored. -/

namespace Sys2Proof.Machine

/-! ## The registers of a list (R231) -/

/-- Each register once, the lowest first. -/
def ascending (rs : List Reg) : Prop := rs.Pairwise fun r q => r.toNat < q.toNat

theorem ascending_registersOf (list : BitVec 16) : ascending (registersOf list) := by
  refine List.pairwise_map.2 (List.Pairwise.imp_of_mem ?_ (List.pairwise_lt_range.filter _))
  intro j k hj hk h
  have lt (i : Nat) (hi : i ∈ (List.range 16).filter fun k => list.getLsbD k) : i < 16 :=
    List.mem_range.1 (List.mem_filter.1 hi).1
  rw [BitVec.toNat_ofNat, BitVec.toNat_ofNat, Nat.mod_eq_of_lt (lt j hj), Nat.mod_eq_of_lt (lt k hk)]
  exact h

theorem mem_registersOf {list : BitVec 16} {r : Reg} : r ∈ registersOf list ↔ list.getLsbD r.toNat = true := by
  simp only [registersOf, List.mem_map, List.mem_filter, List.mem_range]
  constructor
  · rintro ⟨k, ⟨lt, set⟩, rfl⟩
    rwa [BitVec.toNat_ofNat, Nat.mod_eq_of_lt lt]
  · exact fun set => ⟨r.toNat, ⟨r.isLt, set⟩, by simp⟩

/-- Settles O43. -/
theorem registerListAscending : Obligations.RegisterListAscending :=
  fun list => ⟨ascending_registersOf list, fun _ => mem_registersOf⟩

theorem registersOf_eq_nil_iff {list : BitVec 16} : registersOf list = [] ↔ list = 0 := by
  rw [List.eq_nil_iff_forall_not_mem]
  constructor
  · refine fun none => BitVec.eq_of_getLsbD_eq fun k hk => ?_
    have unset := mt mem_registersOf.2 (none (BitVec.ofNat 4 k))
    rw [BitVec.toNat_ofNat, Nat.mod_eq_of_lt hk] at unset
    simpa using unset
  · rintro rfl r hr
    simpa using mem_registersOf.1 hr

theorem ascending.nodup {rs : List Reg} (h : ascending rs) : rs.Nodup :=
  List.Pairwise.imp (fun lt e => by simp [e] at lt) h

theorem ascending.length_le {rs : List Reg} (h : ascending rs) : rs.length ≤ 16 :=
  h.nodup.length_le_card

/-- r15 can only be the last. -/
theorem ascending.ne_pc {rs : List Reg} (h : ascending rs) {k : Nat} (hk : k + 1 < rs.length) : rs[k] ≠ 15 := by
  intro e
  have lt := List.pairwise_iff_getElem.1 h k (k + 1) (by omega) hk (by omega)
  have := rs[k + 1].isLt
  rw [e] at lt
  exact absurd lt (by simp; omega)

/-- The registers of a short list, and one above them. -/
theorem ascending_registersOf_append {list : BitVec 8} {r : Reg} (hr : 8 ≤ r.toNat) (more : Bool) :
    ascending (registersOf (list.setWidth 16) ++ if more then [r] else []) := by
  refine List.pairwise_append.2 ⟨ascending_registersOf _, by cases more <;> simp, fun q hq p hp => ?_⟩
  have set := mem_registersOf.1 hq
  have : q.toNat < 8 := by
    by_contra high
    simp [BitVec.getLsbD_of_ge list q.toNat (by omega)] at set
  obtain rfl : p = r := by cases more <;> simp_all
  omega

/-! ## The addresses (R231, R232) -/

theorem blockStart_eq_specStart (p u : Bool) (base : Word) (n : Nat) :
    blockStart p u base n = specStart p u base n := by
  cases p <;> cases u <;> simp [blockStart, specStart, blockBytes, four]

theorem blockAddress_zero (a : Word) : blockAddress a 0 = wordAligned a := by
  rw [wordAligned_eq_lowTwoCleared]
  simp [blockAddress, lowTwoCleared, four]

theorem add_four_succ (a : Word) (k : Nat) : a + four (k + 1) = a + 4 + four k := by
  rw [BitVec.add_assoc, four, four, Nat.mul_add, Nat.add_comm, BitVec.ofNat_add]
  rfl

theorem blockAddress_succ (a : Word) (k : Nat) : blockAddress a (k + 1) = blockAddress (a + 4) k := by
  rw [blockAddress, add_four_succ, blockAddress]

theorem toNat_blockAddress (a : Word) (k : Nat) : (blockAddress a k).toNat = (a.toNat + 4 * k) % 2 ^ 32 / 4 * 4 := by
  rw [blockAddress, BitVec.toNat_ofNat, BitVec.toNat_add, four, BitVec.toNat_ofNat, Nat.add_mod_mod]
  omega

theorem blockAddress_lt (a : Word) (k : Nat) : (blockAddress a k).toNat + 3 < 2 ^ 32 := by
  rw [toNat_blockAddress]
  omega

/-! ## The words read (R234) -/

/-- The first `n` words of a block. -/
def State.wordsAt (s : State) (a : Word) (n : Nat) : List Word :=
  (List.range n).map fun k => s.readWord (blockAddress a k)

theorem State.wordsAt_succ (s : State) (a : Word) (n : Nat) :
    s.wordsAt a (n + 1) = s.readWord (wordAligned a) :: s.wordsAt (a + 4) n := by
  simp [State.wordsAt, List.range_succ_eq_map, blockAddress_zero, blockAddress_succ, Function.comp_def]

@[simp] theorem State.length_wordsAt (s : State) (a : Word) (n : Nat) : (s.wordsAt a n).length = n := by
  simp [State.wordsAt]

/-- The transfers granted are made, and the others follow. -/
theorem readWords_add {s : State} {a : Word} {j : Nat} (h : blockGranted .read a j s) (m : Nat) :
    readWords s.privilege s a (j + m) =
      (s.wordsAt a j ++ (readWords s.privilege s (a + four j) m).1, (readWords s.privilege s (a + four j) m).2) := by
  induction j generalizing a with
  | zero => simp [State.wordsAt, four]
  | succ j ih =>
    have first : s.access .read s.privilege (wordAligned a) 4 = .granted := by
      simpa only [blockAnswer, blockAddress_zero] using h 0 (by omega)
    have later : blockGranted .read (a + 4) j s := fun k hk => by
      simpa only [blockAnswer, blockAddress_succ] using h (k + 1) (by omega)
    rw [Nat.add_right_comm, readWords, first, State.wordsAt_succ, add_four_succ]
    simp only [ih later, List.cons_append]

theorem readWords_granted {s : State} {a : Word} {n : Nat} (h : blockGranted .read a n s) :
    readWords s.privilege s a n = (s.wordsAt a n, .granted) := by
  simpa [readWords] using readWords_add h 0

theorem readWords_stopped {s : State} {a : Word} {n j : Nat} {g : Grant} (h : loadStopsAt a n j g s)
    (hg : g ≠ .granted) : readWords s.privilege s a n = (s.wordsAt a j, g) := by
  obtain ⟨lt, before, answer⟩ := h
  obtain ⟨m, rfl⟩ : ∃ m, n = j + (m + 1) := ⟨n - j - 1, by omega⟩
  have stop : s.access .read s.privilege (wordAligned (a + four j)) 4 = g := by
    rwa [wordAligned_eq_lowTwoCleared]
  rw [readWords_add before, readWords, stop]
  cases g with
  | granted => exact absurd rfl hg
  | aborted => simp
  | unmapped => simp

/-! ## The registers loaded (R234, R237) -/

/-- The registers with the words of a block load in those of mode `m`, r15 apart. -/
def loadedRegs (m : Mode) (regs : Vector Word 30) (vs : List (Reg × Word)) : Vector Word 30 :=
  vs.foldl (fun t x => if x.1 = 15 then t else t.set (regIndex m x.1) x.2) regs

theorem State.withLoaded_eq (s : State) (vs : List (Reg × Word)) :
    s.withLoaded vs = { s with regs := loadedRegs s.mode s.regs vs } := by
  induction vs generalizing s with
  | nil => rfl
  | cons x vs ih =>
    have step : s.withLoaded (x :: vs) = (s.writeReg x.1 x.2).withLoaded vs := rfl
    rw [step, ih, State.mode_congr (State.writeReg_cpsr s x.1 x.2)]
    by_cases pc : x.1 = 15 <;> simp only [State.writeReg, loadedRegs, List.foldl_cons, pc, if_true, if_false]

theorem State.withLoadedUser_eq (s : State) (vs : List (Reg × Word)) :
    s.withLoadedUser vs = { s with regs := loadedRegs .usr s.regs vs } := by
  induction vs generalizing s with
  | nil => rfl
  | cons x vs ih =>
    have step : s.withLoadedUser (x :: vs) = (s.writeUserReg x.1 x.2).withLoadedUser vs := rfl
    rw [step, ih]
    by_cases pc : x.1 = 15 <;> simp only [State.writeUserReg, loadedRegs, List.foldl_cons, pc, if_true, if_false]

theorem placesOf_cons (m : Mode) (r : Reg) (rs : List Reg) :
    placesOf m (r :: rs) = if r = 15 then placesOf m rs else regIndex m r :: placesOf m rs := by
  by_cases pc : r = 15
  · rw [if_pos pc, placesOf, List.filter_cons_of_neg (by simpa using pc)]
    rfl
  · rw [if_neg pc, placesOf, List.filter_cons_of_pos (by simpa using pc)]
    rfl

theorem regIndex_notMem_placesOf (m : Mode) {r : Reg} {rs : List Reg} (hr : r ≠ 15) (h : r ∉ rs) :
    regIndex m r ∉ placesOf m rs := by
  intro place
  obtain ⟨q, hq, e⟩ := List.mem_map.1 place
  obtain ⟨hq, pc⟩ := List.mem_filter.1 hq
  exact h (regIndex_injective m (by simpa using pc) hr e ▸ hq)

/-- Another register's place keeps its word. -/
theorem getElem_loadedRegs_of_notMem {m : Mode} {regs : Vector Word 30} {vs : List (Reg × Word)} {k : Fin 30}
    (h : k ∉ placesOf m (vs.map Prod.fst)) : (loadedRegs m regs vs)[k] = regs[k] := by
  induction vs generalizing regs with
  | nil => rfl
  | cons x vs ih =>
    have step : loadedRegs m regs (x :: vs) =
      loadedRegs m (if x.1 = 15 then regs else regs.set (regIndex m x.1) x.2) vs := rfl
    rw [List.map_cons, placesOf_cons] at h
    by_cases pc : x.1 = 15
    · rw [if_pos pc] at h
      rw [step, if_pos pc, ih h]
    · rw [if_neg pc] at h
      have ⟨apart, rest⟩ := List.ne_and_not_mem_of_not_mem_cons h
      rw [step, if_neg pc, ih rest]
      exact Vector.getElem_set_ne (regIndex m x.1).isLt k.isLt fun e => apart (Fin.ext e.symm)

theorem getElem_loadedRegs_of_mem {m : Mode} {regs : Vector Word 30} {vs : List (Reg × Word)} {r : Reg} {w : Word}
    (once : (vs.map Prod.fst).Nodup) (h : (r, w) ∈ vs) (hr : r ≠ 15) : (loadedRegs m regs vs)[regIndex m r] = w := by
  induction vs generalizing regs with
  | nil => cases h
  | cons x vs ih =>
    have ⟨fresh, once⟩ := List.nodup_cons.1 once
    rcases List.mem_cons.1 h with rfl | h
    · have step : loadedRegs m regs ((r, w) :: vs) = loadedRegs m (regs.set (regIndex m r) w) vs := by
        rw [loadedRegs, List.foldl_cons, if_neg hr]
        rfl
      rw [step, getElem_loadedRegs_of_notMem (regIndex_notMem_placesOf m hr fresh)]
      exact Vector.getElem_set_self _
    · exact ih once h

section
variable {rs : List Reg} {j : Nat} (hj : j ≤ rs.length) (s : State) (a : Word)
include hj

/-- The registers to which the first `j` words of a block go. -/
theorem map_fst_zip_wordsAt : (rs.zip (s.wordsAt a j)).map Prod.fst = rs.take j := by
  rw [List.zip_eq_zip_take_min, State.length_wordsAt, Nat.min_eq_right hj]
  exact List.map_fst_zip (by simp [hj])

theorem mem_zip_wordsAt {k : Nat} (hk : k < j) : (rs[k], s.readWord (blockAddress a k)) ∈ rs.zip (s.wordsAt a j) :=
  List.mem_iff_getElem.2 ⟨k, by simp; omega, by simp [State.wordsAt]⟩

end

theorem getElem_loadedRegs_zip {rs : List Reg} (up : ascending rs) {j k : Nat} (hj : j ≤ rs.length) (hk : k < j)
    (m : Mode) (regs : Vector Word 30) (s : State) (a : Word) (pc : rs[k] ≠ 15) :
    (loadedRegs m regs (rs.zip (s.wordsAt a j)))[regIndex m rs[k]] = s.readWord (blockAddress a k) :=
  getElem_loadedRegs_of_mem (by rw [map_fst_zip_wordsAt hj]; exact up.nodup.sublist (List.take_sublist j rs))
    (mem_zip_wordsAt hj s a hk) pc

/-- The word of r15 is that of the one transfer to it. -/
theorem loadedPc_of_mem {vs : List (Reg × Word)} {w : Word} (once : (vs.map Prod.fst).Nodup) (h : (15, w) ∈ vs) :
    loadedPc vs = some w := by
  induction vs with
  | nil => cases h
  | cons x vs ih =>
    have ⟨fresh, once⟩ := List.nodup_cons.1 once
    rcases List.mem_cons.1 h with rfl | h
    · rfl
    · have other : x.1 ≠ 15 := fun e => fresh (e ▸ List.mem_map_of_mem (f := Prod.fst) h)
      rw [loadedPc, List.find?_cons_of_neg (by simpa using other)]
      exact ih once h

theorem loadedPc_eq_none {vs : List (Reg × Word)} (h : 15 ∉ vs.map Prod.fst) : loadedPc vs = none := by
  simp only [loadedPc, Option.map_eq_none_iff, List.find?_eq_none, beq_iff_eq]
  exact fun x hx e => h (e ▸ List.mem_map_of_mem (f := Prod.fst) hx)

/-- The word of r15 is the last. -/
theorem loadedPc_zip {rs : List Reg} (up : ascending rs) (s : State) (a : Word) :
    loadedPc (rs.zip (s.wordsAt a rs.length)) =
      if 15 ∈ rs then some (s.readWord (blockAddress a (rs.length - 1))) else none := by
  have fst : (rs.zip (s.wordsAt a rs.length)).map Prod.fst = rs := by
    rw [map_fst_zip_wordsAt le_rfl, List.take_length]
  split
  · rename_i pc
    obtain ⟨k, hk, e⟩ := List.mem_iff_getElem.1 pc
    obtain rfl : k = rs.length - 1 := by
      by_contra h
      exact up.ne_pc (by omega) e
    exact loadedPc_of_mem (by rw [fst]; exact up.nodup) (e ▸ mem_zip_wordsAt le_rfl s a hk)
  · exact loadedPc_eq_none (by rwa [fst])

/-! ## The words stored (R238, R81) -/

/-- The addresses of a block store, each with its value. -/
def blockCells (a : Word) (vs : List Word) : List (Word × Word) :=
  ((List.range vs.length).map (blockAddress a)).zip vs

theorem blockCells_cons (a v : Word) (vs : List Word) :
    blockCells a (v :: vs) = (wordAligned a, v) :: blockCells (a + 4) vs := by
  simp [blockCells, List.range_succ_eq_map, blockAddress_zero, blockAddress_succ, Function.comp_def]

@[simp] theorem length_blockCells (a : Word) (vs : List Word) : (blockCells a vs).length = vs.length := by
  simp [blockCells]

theorem getElem_blockCells (a : Word) (vs : List Word) {k : Nat} (hk : k < vs.length) :
    (blockCells a vs)[k]'(by simpa using hk) = (blockAddress a k, vs[k]) := by
  simp [blockCells]

theorem mem_blockCells {a : Word} {vs : List Word} {c : Word × Word} :
    c ∈ blockCells a vs ↔ ∃ k, ∃ h : k < vs.length, c = (blockAddress a k, vs[k]) := by
  rw [List.mem_iff_getElem]
  simp [blockCells, eq_comm]

/-- The words lie apart from each other, and each below the top of the address space. -/
structure CellsApart (cs : List (Word × Word)) : Prop where
  apart : cs.Pairwise fun c d => c.1.toNat + 4 ≤ d.1.toNat ∨ d.1.toNat + 4 ≤ c.1.toNat
  below : ∀ c ∈ cs, c.1.toNat + 3 < 2 ^ 32

theorem cellsApart_blockCells (a : Word) {vs : List Word} (h : vs.length ≤ 2 ^ 30) : CellsApart (blockCells a vs) where
  apart := List.pairwise_iff_getElem.2 fun j k hj hk lt => by
    rw [length_blockCells] at hj hk
    rw [getElem_blockCells a vs hj, getElem_blockCells a vs hk]
    simp only [toNat_blockAddress]
    omega
  below c hc := by
    obtain ⟨k, _, rfl⟩ := mem_blockCells.1 hc
    exact blockAddress_lt a k

theorem CellsApart.filter {cs : List (Word × Word)} (h : CellsApart cs) (p : Word × Word → Bool) :
    CellsApart (cs.filter p) :=
  ⟨h.apart.filter p, fun c hc => h.below c (List.mem_of_mem_filter hc)⟩

/-- Words stored one after the other. -/
def State.wordsStored (s : State) (cs : List (Word × Word)) : State := cs.foldl (fun t c => t.writeWord c.1 c.2) s

theorem State.wordsStored_cons (s : State) (c : Word × Word) (cs : List (Word × Word)) :
    s.wordsStored (c :: cs) = (s.writeWord c.1 c.2).wordsStored cs := rfl

theorem State.wordsStored_eq (s : State) (cs : List (Word × Word)) :
    s.wordsStored cs =
      { s with mem := (s.wordsStored cs).mem, currentStores := (s.wordsStored cs).currentStores } := by
  induction cs generalizing s with
  | nil => rfl
  | cons c cs ih =>
    rw [State.wordsStored_cons, ih]
    simp only [State.writeWord]
    split <;> rfl

theorem State.readByte_wordsStored_of_ne {s : State} {cs : List (Word × Word)} {b : Nat}
    (h : ∀ c ∈ cs, b < c.1.toNat ∨ c.1.toNat + 4 ≤ b) : (s.wordsStored cs).readByte b = s.readByte b := by
  induction cs generalizing s with
  | nil => rfl
  | cons c cs ih =>
    obtain ⟨hc, hcs⟩ := List.forall_mem_cons.1 h
    rw [State.wordsStored_cons, ih hcs, State.readByte_writeWord_of_ne _ _ _ hc]

theorem State.readWord_wordsStored {s : State} (hs : s.mem.wf = true) {cs : List (Word × Word)} (hcs : CellsApart cs)
    {a v : Word} (h : (a, v) ∈ cs) : (s.wordsStored cs).readWord a = v := by
  induction cs generalizing s with
  | nil => cases h
  | cons c cs ih =>
    have ⟨first, later⟩ := List.pairwise_cons.1 hcs.apart
    obtain ⟨low, lows⟩ := List.forall_mem_cons.1 hcs.below
    rw [State.wordsStored_cons]
    rcases List.mem_cons.1 h with rfl | h
    · refine (State.readWord_congr ?_ a fun k hk => ?_).trans (State.readWord_writeWord_same hs low v)
      · rw [State.wordsStored_eq]
      · exact State.readByte_wordsStored_of_ne fun d hd => by
          have : a.toNat + 4 ≤ d.1.toNat ∨ d.1.toNat + 4 ≤ a.toNat := first d hd
          omega
    · exact ih (State.wf_writeWord hs low c.2) ⟨later, lows⟩ h

/-- What the words held before goes on record, in their order. -/
theorem State.currentStores_wordsStored {s : State} {cs : List (Word × Word)} (hcs : CellsApart cs) :
    (s.wordsStored cs).currentStores = s.currentStores ++ cs.flatMap fun c => oldBytes s c.1.toNat 4 := by
  induction cs generalizing s with
  | nil => simp [State.wordsStored]
  | cons c cs ih =>
    have ⟨first, later⟩ := List.pairwise_cons.1 hcs.apart
    obtain ⟨_, lows⟩ := List.forall_mem_cons.1 hcs.below
    have same (d : Word × Word) (hd : d ∈ cs) :
        oldBytes (s.writeWord c.1 c.2) d.1.toNat 4 = oldBytes s d.1.toNat 4 :=
      List.map_congr_left fun k hk => by
        have := first d hd
        have := List.mem_range.1 hk
        rw [State.readByte_writeWord_of_ne _ _ _ (by omega)]
    rw [State.wordsStored_cons, ih ⟨later, lows⟩, State.currentStores_writeWord, List.flatMap_cons, List.append_assoc]
    congr 2
    exact List.flatMap_congr same

/-- The words of a block store that the platform grants. -/
def grantedCells (s : State) (a : Word) (vs : List Word) : List (Word × Word) :=
  (blockCells a vs).filter fun c => s.access .write s.privilege c.1 4 = .granted

theorem grantedCells_cons (s : State) (a v : Word) (vs : List Word) :
    grantedCells s a (v :: vs) =
      if s.access .write s.privilege (wordAligned a) 4 = .granted then (wordAligned a, v) :: grantedCells s (a + 4) vs
      else grantedCells s (a + 4) vs := by
  rw [grantedCells, blockCells_cons, List.filter_cons]
  simp only [decide_eq_true_eq]
  rfl

theorem mem_grantedCells {s : State} {a : Word} {vs : List Word} {c : Word × Word} :
    c ∈ grantedCells s a vs ↔
      ∃ k, ∃ h : k < vs.length, c = (blockAddress a k, vs[k]) ∧ blockAnswer .write a s k = .granted := by
  rw [grantedCells, List.mem_filter, mem_blockCells]
  constructor
  · rintro ⟨⟨k, hk, rfl⟩, granted⟩
    exact ⟨k, hk, rfl, of_decide_eq_true granted⟩
  · rintro ⟨k, hk, rfl, granted⟩
    exact ⟨⟨k, hk, rfl⟩, decide_eq_true granted⟩

/-- The words granted are stored, and whether one aborts is answered, if something is mapped at each. -/
theorem writeBlock_mapped {s t : State} (hp : t.plat = s.plat) {a : Word} {vs : List Word}
    (h : ∀ k, k < vs.length → blockAnswer .write a s k ≠ .unmapped) :
    writeBlock s.privilege t a vs = some (t.wordsStored (grantedCells s a vs),
      (blockCells a vs).any fun c => s.access .write s.privilege c.1 4 = .aborted) := by
  induction vs generalizing t a with
  | nil => rfl
  | cons v vs ih =>
    have first : s.access .write s.privilege (wordAligned a) 4 ≠ .unmapped := by
      simpa only [blockAnswer, blockAddress_zero] using h 0 (by simp)
    have later (k : Nat) (hk : k < vs.length) : blockAnswer .write (a + 4) s k ≠ .unmapped := by
      simpa only [blockAnswer, blockAddress_succ] using h (k + 1) (by simpa using hk)
    rw [writeBlock, State.access_congr hp, grantedCells_cons, blockCells_cons, List.any_cons]
    cases answer : s.access .write s.privilege (wordAligned a) 4 with
    | granted =>
      have rest := ih (t := t.writeWord (wordAligned a) v) (by simpa using hp) later
      simpa [State.wordsStored_cons] using rest
    | aborted =>
      have rest := congrArg (Option.map fun x => (x.1, true)) (ih hp later)
      simpa using rest
    | unmapped => exact absurd answer first

theorem writeBlock_unmapped {s t : State} (hp : t.plat = s.plat) {a : Word} {vs : List Word} {k : Nat}
    (hk : k < vs.length) (h : blockAnswer .write a s k = .unmapped) : writeBlock s.privilege t a vs = none := by
  induction vs generalizing t a k with
  | nil => simp at hk
  | cons v vs ih =>
    rw [writeBlock, State.access_congr hp]
    cases k with
    | zero =>
      rw [blockAnswer, blockAddress_zero] at h
      rw [h]
    | succ k =>
      rw [blockAnswer, blockAddress_succ] at h
      have later : k < vs.length := by simpa using hk
      cases s.access .write s.privilege (wordAligned a) 4 with
      | granted => exact ih (t := t.writeWord (wordAligned a) v) (by simpa using hp) later h
      | aborted => exact Option.map_eq_none_iff.2 (ih hp later h)
      | unmapped => rfl

section
variable {s t : State} {a : Word} {vs : List Word} (hs : s.mem.wf = true) (hn : vs.length ≤ 2 ^ 30)
  (hm : t.mem = (s.wordsStored (grantedCells s a vs)).mem) (hp : t.plat = s.plat)
include hs hn hm hp

/-- What is in memory after a block store is what its rule says. -/
theorem grantedInMemory_of_mem : grantedInMemory vs a s t := by
  have bytes (b : Nat) : t.readByte b = (s.wordsStored (grantedCells s a vs)).readByte b := by
    rw [State.readByte, hm, State.readByte]
  have plat : t.plat = (s.wordsStored (grantedCells s a vs)).plat := by rw [hp, State.wordsStored_eq]
  refine ⟨fun k hk granted => ?_, fun b hb => ?_⟩
  · rw [State.readWord_congr plat _ fun _ _ => bytes _]
    refine State.readWord_wordsStored hs ((cellsApart_blockCells a hn).filter _) (mem_grantedCells.2 ?_)
    exact ⟨k, hk, rfl, granted⟩
  · rw [bytes, State.readByte_wordsStored_of_ne fun c hc => ?_]
    obtain ⟨k, hk, rfl, granted⟩ := mem_grantedCells.1 hc
    exact hb k hk granted

/-- All of it granted, it is on record too. -/
theorem blockInMemory_of_mem (granted : blockGranted .write a vs.length s)
    (hr : t.recentStores = (s.wordsStored (grantedCells s a vs)).currentStores) : blockInMemory vs a s t := by
  obtain ⟨words, others⟩ := grantedInMemory_of_mem hs hn hm hp
  have all : grantedCells s a vs = blockCells a vs := List.filter_eq_self.2 fun c hc => by
    obtain ⟨k, hk, rfl⟩ := mem_blockCells.1 hc
    exact decide_eq_true (granted k hk)
  refine ⟨fun k hk => words k hk (granted k hk), fun b hb => others b fun k hk _ => hb k hk, ?_⟩
  rw [hr, all, State.currentStores_wordsStored (cellsApart_blockCells a hn)]
  have addresses : (blockCells a vs).map Prod.fst = (List.range vs.length).map (blockAddress a) :=
    List.map_fst_zip (by simp)
  congr 1
  calc (blockCells a vs).flatMap (fun c => oldBytes s c.1.toNat 4)
    _ = ((blockCells a vs).map Prod.fst).flatMap fun b => oldBytes s b.toNat 4 := by rw [List.flatMap_map]
    _ = _ := by rw [addresses, List.flatMap_map]

end

end Sys2Proof.Machine
end

section
/-! SUPPORT. LDM and STM, PUSH, POP, STMIA and LDMIA as one block transfer (45_arm_block_transfer.md R231 to R242,
48_thumb_load_store.md R330 to R334), and what LDM and STM do with every access granted. -/

namespace Sys2Proof.Machine

/-! ## What a block transfer does -/

/-- How the load that an instruction is ends. -/
def loadEnd (i : Instr) : Option Word → State → Result :=
  match i with
  | .ldm3 _ _ _ _ _ _ => finishReturn
  | .tPop _ _ => finishPop
  | .tLdmia _ _ => finishPop
  | _ => finishLoad

/-- The bank to which the words go. -/
def Block.place (b : Block) : State → List (Reg × Word) → State :=
  if b.userBank then State.withLoadedUser else State.withLoaded

/-- The mark that an LDM (2) or STM (2) leaves (R244). -/
def Block.marked (b : Block) (r : Result) : Result := if b.userBank then leavesUserBank r else r

/-- The transfer with its operands allowed. -/
def Block.run (b : Block) (finish : Option Word → State → Result) (s : State) : Result :=
  b.marked (if b.load then loadBlock b.rn (s.readReg b.rn) b.start b.rs b.final b.place finish s
    else storeBlock b.rn b.start b.values b.final s)

/-! ## The operands that are refused (R233, R236, R237, R239) -/

theorem blockRefusal_nil (rn : Reg) : blockRefusal rn [] = some .emptyList := rfl

theorem blockRefusal_pc {rs : List Reg} (h : rs ≠ []) : blockRefusal 15 rs = some .pcOperand := by
  simp [blockRefusal, h]

theorem blockRefusal_eq_none {rn : Reg} {rs : List Reg} (h : rs ≠ []) (hr : rn ≠ 15) : blockRefusal rn rs = none := by
  rw [blockRefusal, if_neg (by simpa using h), if_neg hr]

theorem loadBaseRefusal_of_mem {rn : Reg} {rs : List Reg} (h : rn ∈ rs) :
    loadBaseRefusal true rn rs = some .baseInList := if_pos (by simpa using h)

theorem loadBaseRefusal_eq_none {w : Bool} {rn : Reg} {rs : List Reg} (h : w = true → rn ∉ rs) :
    loadBaseRefusal w rn rs = none := if_neg (by simpa using h)

theorem storeBaseRefusal_of_mem {rn : Reg} {rs : List Reg} (h : rn ∈ rs) (first : rs.head? ≠ some rn) :
    storeBaseRefusal true rn rs = some .baseInList := if_pos (by simpa using ⟨h, first⟩)

theorem storeBaseRefusal_eq_none {w : Bool} {rn : Reg} {rs : List Reg}
    (h : w = true → rn ∈ rs → rs.head? = some rn) : storeBaseRefusal w rn rs = none := if_neg (by simpa using h)

theorem userBankRefusal_mode {m : Mode} (h : m = .usr ∨ m = .sys) (w : Bool) :
    userBankRefusal w m = some .userBankMode := if_pos (by simpa using h)

theorem userBankRefusal_writeBack {m : Mode} (h : ¬ (m = .usr ∨ m = .sys)) :
    userBankRefusal true m = some .userBankWriteBack := by
  rw [userBankRefusal, if_neg (by simpa using h), if_pos rfl]

theorem userBankRefusal_eq_none {m : Mode} (h : ¬ (m = .usr ∨ m = .sys)) : userBankRefusal false m = none := by
  rw [userBankRefusal, if_neg (by simpa using h), if_neg (by simp)]

theorem State.spsrOf_isNone_eq_false {s : State} {m : Mode} (h : ¬ (m = .usr ∨ m = .sys)) :
    (s.spsrOf m).isNone = false := by
  cases m <;> simp_all [State.spsrOf]

/-! ## Each instruction as a block transfer -/

section
variable (c : Cond) (p u w : Bool) (rn : Reg) {s : State} (hr : rn ≠ 15)
include hr

theorem exec_ldm1 (hc : condHolds c s.cpsr = true) {list : BitVec 16} (h : registersOf list ≠ [])
    (hw : w = true → rn ∉ registersOf list) :
    exec (.ldm1 c p u w rn list) s = blockLoad p u w rn (registersOf list) State.withLoaded finishLoad s := by
  refine (conditional_pass hc _).trans ?_
  rw [blockRefusal_eq_none h hr, loadBaseRefusal_eq_none hw]
  rfl

theorem exec_ldm2 (hc : condHolds c s.cpsr = true) {list : BitVec 15} (h : registersOf (list.setWidth 16) ≠ [])
    (hm : ¬ (s.mode = .usr ∨ s.mode = .sys)) :
    exec (.ldm2 c p u false rn list) s =
      leavesUserBank (blockLoad p u false rn (registersOf (list.setWidth 16)) State.withLoadedUser finishLoad s) := by
  refine (conditional_pass hc _).trans ?_
  rw [blockRefusal_eq_none h hr, userBankRefusal_eq_none hm]
  rfl

theorem exec_ldm3 (hc : condHolds c s.cpsr = true) {list : BitVec 15} (h : returnRegisters list ≠ [])
    (hw : w = true → rn ∉ returnRegisters list) (hm : ¬ (s.mode = .usr ∨ s.mode = .sys)) :
    exec (.ldm3 c p u w rn list) s = blockLoad p u w rn (returnRegisters list) State.withLoaded finishReturn s := by
  refine (conditional_pass hc _).trans ?_
  rw [blockRefusal_eq_none h hr, loadBaseRefusal_eq_none hw, State.spsrOf_isNone_eq_false hm]
  rfl

theorem exec_stm1 (hc : condHolds c s.cpsr = true) {list : BitVec 16} (h : registersOf list ≠ [])
    (hw : w = true → rn ∈ registersOf list → (registersOf list).head? = some rn) :
    exec (.stm1 c p u w rn list) s = blockStore p u w rn ((registersOf list).map s.storedReg) s := by
  refine (conditional_pass hc _).trans ?_
  rw [blockRefusal_eq_none h hr, storeBaseRefusal_eq_none hw]
  rfl

theorem exec_stm2 (hc : condHolds c s.cpsr = true) {list : BitVec 16} (h : registersOf list ≠ [])
    (hm : ¬ (s.mode = .usr ∨ s.mode = .sys)) :
    exec (.stm2 c p u false rn list) s =
      leavesUserBank (blockStore p u false rn ((registersOf list).map s.storedUserReg) s) := by
  refine (conditional_pass hc _).trans ?_
  rw [blockRefusal_eq_none h hr, userBankRefusal_eq_none hm]
  rfl

end

theorem blockLoad_eq (p u w : Bool) (rn : Reg) (rs : List Reg) (place : State → List (Reg × Word) → State)
    (finish : Option Word → State → Result) (s : State) :
    blockLoad p u w rn rs place finish s = loadBlock rn (s.readReg rn) (specStart p u (s.readReg rn) rs.length) rs
      (if w then some (specFinal u (s.readReg rn) rs.length) else none) place finish s := by
  rw [blockLoad, blockStart_eq_specStart]
  rfl

theorem blockStore_eq (p u w : Bool) (rn : Reg) (vs : List Word) (s : State) :
    blockStore p u w rn vs s = storeBlock rn (specStart p u (s.readReg rn) vs.length) vs
      (if w then some (specFinal u (s.readReg rn) vs.length) else none) s := by
  rw [blockStore, blockStart_eq_specStart]
  rfl

/-- What `blockForm` answers describes the instruction. -/
structure Block.Describes (b : Block) (i : Instr) (s : State) : Prop where
  base : b.rn ≠ 15
  up : ascending b.rs
  bank : b.bank = if b.userBank then .usr else s.mode
  values : b.load = false → b.values.length = b.rs.length
  exec : condHolds b.c s.cpsr = true → exec i s = b.run (loadEnd i) s

/-! The checks of `blockForm`, taken apart. -/

theorem allowed_iff {ok : Bool} {rs : List Reg} {rn : Reg} :
    (ok && !rs.isEmpty && rn != 15) = true ↔ ok = true ∧ rs ≠ [] ∧ rn ≠ 15 := by
  simp [and_assoc]

theorem baseApart_iff {w : Bool} {rn : Reg} {rs : List Reg} :
    (!(w && rs.contains rn)) = true ↔ (w = true → rn ∉ rs) := by
  cases w <;> simp

theorem baseFirst_iff {w : Bool} {rn : Reg} {rs : List Reg} :
    (!(w && rs.contains rn && rs.head? != some rn)) = true ↔ (w = true → rn ∈ rs → rs.head? = some rn) := by
  cases w <;> simp [imp_iff_not_or]

theorem banked_iff {m : Mode} : (m != .usr && m != .sys) = true ↔ ¬ (m = .usr ∨ m = .sys) := by
  simp

theorem emptyRefusal_eq_none {rs : List Reg} (h : ¬ rs.isEmpty = true) : emptyRefusal rs = none := if_neg h

theorem stack_ne_pc : (13 : Reg) ≠ 15 := by decide

theorem blockForm_describes {i : Instr} {s : State} {b : Block} (h : blockForm i s = some b) : b.Describes i s := by
  unfold blockForm at h
  dsimp only at h
  split at h
  case h_1 c p u w rn list =>
    obtain ⟨ok, rfl⟩ := Option.ite_some_none_eq_some.1 h
    obtain ⟨ok, hrs, hrn⟩ := allowed_iff.1 ok
    refine ⟨hrn, ascending_registersOf list, rfl, nofun, fun hc => ?_⟩
    rw [exec_ldm1 c p u w rn hrn hc hrs (baseApart_iff.1 ok), blockLoad_eq]
    rfl
  case h_2 c p u w rn list =>
    obtain ⟨ok, rfl⟩ := Option.ite_some_none_eq_some.1 h
    obtain ⟨ok, hrs, hrn⟩ := allowed_iff.1 ok
    obtain ⟨plain, banked⟩ := Bool.and_eq_true_iff.1 ok
    obtain rfl : w = false := by simpa using plain
    refine ⟨hrn, ascending_registersOf _, rfl, nofun, fun hc => ?_⟩
    rw [exec_ldm2 c p u rn hrn hc hrs (banked_iff.1 banked), blockLoad_eq]
    rfl
  case h_3 c p u w rn list =>
    obtain ⟨ok, rfl⟩ := Option.ite_some_none_eq_some.1 h
    obtain ⟨ok, hrs, hrn⟩ := allowed_iff.1 ok
    obtain ⟨apart, banked⟩ := Bool.and_eq_true_iff.1 ok
    refine ⟨hrn, ascending_registersOf _, rfl, nofun, fun hc => ?_⟩
    rw [exec_ldm3 c p u w rn hrn hc hrs (baseApart_iff.1 apart) (banked_iff.1 banked), blockLoad_eq]
    rfl
  case h_4 c p u w rn list =>
    obtain ⟨ok, rfl⟩ := Option.ite_some_none_eq_some.1 h
    obtain ⟨ok, hrs, hrn⟩ := allowed_iff.1 ok
    refine ⟨hrn, ascending_registersOf list, rfl, fun _ => List.length_map _, fun hc => ?_⟩
    rw [exec_stm1 c p u w rn hrn hc hrs (baseFirst_iff.1 ok), blockStore_eq, List.length_map]
    rfl
  case h_5 c p u w rn list =>
    obtain ⟨ok, rfl⟩ := Option.ite_some_none_eq_some.1 h
    obtain ⟨ok, hrs, hrn⟩ := allowed_iff.1 ok
    obtain ⟨plain, banked⟩ := Bool.and_eq_true_iff.1 ok
    obtain rfl : w = false := by simpa using plain
    refine ⟨hrn, ascending_registersOf _, rfl, fun _ => List.length_map _, fun hc => ?_⟩
    rw [exec_stm2 c p u rn hrn hc hrs (banked_iff.1 banked), blockStore_eq, List.length_map]
    rfl
  case h_6 lr list =>
    obtain ⟨hrs, h⟩ := Option.ite_none_left_eq_some.1 h
    obtain rfl := Option.some.inj h
    refine ⟨stack_ne_pc, ascending_registersOf_append (by decide) lr, rfl, fun _ => List.length_map _, fun _ => ?_⟩
    exact congrArg (guarded · _) (emptyRefusal_eq_none hrs)
  case h_7 pc list =>
    obtain ⟨hrs, h⟩ := Option.ite_none_left_eq_some.1 h
    obtain rfl := Option.some.inj h
    refine ⟨stack_ne_pc, ascending_registersOf_append (by decide) pc, rfl, nofun, fun _ => ?_⟩
    exact congrArg (guarded · _) (emptyRefusal_eq_none hrs)
  case h_8 rb list =>
    obtain ⟨first, h⟩ := Option.ite_none_left_eq_some.1 h
    obtain ⟨hrs, h⟩ := Option.ite_none_left_eq_some.1 h
    obtain rfl := Option.some.inj h
    refine ⟨lowReg_ne_pc rb, ascending_registersOf _, rfl, fun _ => List.length_map _, fun _ => ?_⟩
    refine (congrArg (guarded · _) (emptyRefusal_eq_none hrs)).trans ?_
    exact congrArg (guarded · _) (if_neg first)
  case h_9 rb list =>
    obtain ⟨hrs, h⟩ := Option.ite_none_left_eq_some.1 h
    obtain rfl := Option.some.inj h
    refine ⟨lowReg_ne_pc rb, ascending_registersOf _, rfl, nofun, fun _ => ?_⟩
    exact congrArg (guarded · _) (emptyRefusal_eq_none hrs)
  case h_10 => cases h

end Sys2Proof.Machine
end

section
/-! SUPPORT. What a block transfer answers with every access granted, and what LDM and STM do then
(45_arm_block_transfer.md R231 to R239). -/

namespace Sys2Proof.Machine

/-! ## A block load with every access granted -/

theorem Block.Describes.place_eq {b : Block} {i : Instr} {s : State} (d : b.Describes i s) {t : State}
    (ht : t.mode = s.mode) (vs : List (Reg × Word)) :
    b.place t vs = { t with regs := loadedRegs b.bank t.regs vs } := by
  rw [d.bank, Block.place]
  split
  · exact t.withLoadedUser_eq vs
  · rw [t.withLoaded_eq vs, ht]

theorem State.writtenBack_eq (s : State) (rn : Reg) (wb : Option Word) :
    s.writtenBack rn wb = { s with regs := (s.writtenBack rn wb).regs } := by
  cases wb with
  | none => rfl
  | some v =>
    simp only [State.writtenBack, State.writeReg]
    split <;> rfl

theorem State.mode_writtenBack (s : State) (rn : Reg) (wb : Option Word) : (s.writtenBack rn wb).mode = s.mode :=
  State.mode_congr (by simp)

theorem State.regs_writtenBack_of_ne (s : State) {rn : Reg} (wb : Option Word) {k : Fin 30}
    (h : k ∉ baseIf wb.isSome s.mode rn) : (s.writtenBack rn wb).regs[k] = s.regs[k] := by
  cases wb with
  | none => rfl
  | some v => exact State.regs_writeReg_of_ne s v (by simpa [baseIf] using h)

theorem State.regs_writtenBack_same (s : State) {rn : Reg} (hr : rn ≠ 15) (v : Word) :
    (s.writtenBack rn (some v)).regs[regIndex s.mode rn] = v := by
  rw [State.writtenBack, State.writeReg_regs hr]
  exact Vector.getElem_set_self _

/-- The base written back, and the words of the block in their registers. -/
def Block.loaded (b : Block) (s : State) : State :=
  { s with regs :=
      loadedRegs b.bank (s.writtenBack b.rn b.final).regs (b.rs.zip (s.wordsAt b.start b.rs.length)) }

/-- The word of r15, if it is in the list, is the last of the block. -/
def Block.loadsPc (b : Block) (s : State) : Option Word :=
  if 15 ∈ b.rs then some (s.readWord (blockAddress b.start (b.rs.length - 1))) else none

section
variable {b : Block} {i : Instr} {s : State} (d : b.Describes i s)
include d

theorem Block.Describes.run_load (load : b.load = true) (granted : blockGranted .read b.start b.rs.length s)
    (finish : Option Word → State → Result) : b.run finish s = b.marked (finish (b.loadsPc s) (b.loaded s)) := by
  rw [Block.run, load, if_pos rfl, loadBlock, readWords_granted granted]
  simp only
  rw [loadedPc_zip d.up, d.place_eq (s.mode_writtenBack _ _), State.writtenBack_eq]
  rfl

theorem Block.Describes.blockInRegs_loaded : blockInRegs b.bank b.rs b.start s (b.loaded s) :=
  fun _ hk pc => getElem_loadedRegs_zip d.up le_rfl hk b.bank _ s b.start pc

theorem Block.Describes.base_loaded {v : Word} (hf : b.final = some v)
    (apart : regIndex s.mode b.rn ∉ placesOf b.bank b.rs) : (b.loaded s).regs[regIndex s.mode b.rn] = v := by
  have kept := getElem_loadedRegs_of_notMem (regs := (s.writtenBack b.rn b.final).regs)
    (vs := b.rs.zip (s.wordsAt b.start b.rs.length)) (by rwa [map_fst_zip_wordsAt le_rfl, List.take_length])
  exact kept.trans (by rw [hf, State.regs_writtenBack_same s d.base])

end

theorem Block.regsKeptBut_loaded (b : Block) (s : State) :
    regsKeptBut (placesOf b.bank b.rs ++ baseIf b.final.isSome s.mode b.rn) s (b.loaded s) := by
  intro k hk
  have ⟨loads, base⟩ : k ∉ placesOf b.bank b.rs ∧ k ∉ baseIf b.final.isSome s.mode b.rn := by simpa using hk
  have kept := getElem_loadedRegs_of_notMem (regs := (s.writtenBack b.rn b.final).regs)
    (vs := b.rs.zip (s.wordsAt b.start b.rs.length)) (by rwa [map_fst_zip_wordsAt le_rfl, List.take_length])
  exact kept.trans (State.regs_writtenBack_of_ne s b.final base)

theorem isSome_ite (w : Bool) (v : Word) : (if w then some v else none).isSome = w := by
  cases w <;> rfl

/-! ## LDM (1) and LDM (2) (R234, R235, R237) -/

/-- The state in which a load that `finishLoad` ends goes on. -/
def afterLoad (pc : Option Word) (s : State) : State :=
  match pc with
  | some v => s.branchTo (wordAligned v)
  | none => s.advance

theorem finishLoad_eq (pc : Option Word) (s : State) : finishLoad pc s = .next (afterLoad pc s) := by
  cases pc <;> rfl

@[simp] theorem afterLoad_regs (pc : Option Word) (s : State) : (afterLoad pc s).regs = s.regs := by
  cases pc <;> rfl

theorem readReg_afterLoad {r : Reg} (hr : r ≠ 15) (pc : Option Word) (s : State) :
    (afterLoad pc s).readReg r = s.readReg r := by
  cases pc with
  | some v => exact State.readReg_branchTo hr s _
  | none => exact State.readReg_advance hr s

/-- Besides registers and the pc, a load changes nothing. -/
theorem afterLoad_frame (pc : Option Word) (s : State) (regs : Vector Word 30) :
    let t := afterLoad pc { s with regs := regs }
    flagsKept s t ∧ bytesKept s t ∧ restKept s t := by
  cases pc <;> exact ⟨⟨rfl, rfl, rfl, rfl⟩, fun _ => rfl, ⟨rfl, rfl, rfl, rfl, rfl⟩, ⟨rfl, rfl, rfl, rfl, rfl⟩,
    ⟨rfl, rfl, rfl, rfl⟩⟩

theorem inSequence_afterLoad (s : State) (regs : Vector Word 30) :
    inSequence s (afterLoad none { s with regs := regs }) := inSequence_advance rfl rfl rfl rfl

theorem pc_notMem_short (list : BitVec 15) : 15 ∉ registersOf (list.setWidth 16) := by
  simp [mem_registersOf]

/-- Settles O44: the base is written first, then the registers, and r15 at the end. -/
theorem loadMultiple : Obligations.LoadMultiple := by
  unfold Obligations.LoadMultiple
  intro c p u w rn s hc hr base
  constructor
  · intro list rs start hrs hw granted
    let b : Block := ⟨c, true, false, rn, s.mode, rs, start, if w then some (specFinal u base rs.length) else none, []⟩
    have form : blockForm (.ldm1 c p u w rn list) s = some b := if_pos (allowed_iff.2 ⟨baseApart_iff.2 hw, hrs, hr⟩)
    have d := blockForm_describes form
    have run := (d.exec hc).trans (d.run_load rfl granted finishLoad)
    obtain ⟨flags, bytes, rest⟩ := afterLoad_frame (b.loadsPc s) s (b.loaded s).regs
    refine ⟨_, run.trans (finishLoad_eq _ _), ?_, fun writes => ?_, ?_, ?_, flags, bytes, rest⟩
    · simpa only [blockInRegs, afterLoad_regs] using d.blockInRegs_loaded
    · have apart := regIndex_notMem_placesOf s.mode hr (hw writes)
      rw [readReg_afterLoad hr, State.readReg_regs hr]
      exact d.base_loaded (if_pos writes) apart
    · simpa only [regsKeptBut, afterLoad_regs, isSome_ite, b] using b.regsKeptBut_loaded s
    · split
      · rename_i pc
        rw [Block.loadsPc, if_pos pc, ← wordAligned_eq_lowTwoCleared]
        exact wentTo_branchTo _ _
      · rename_i pc
        rw [Block.loadsPc, if_neg pc]
        exact inSequence_afterLoad s _
  · intro list rs start hrs usr sys granted
    let b : Block := ⟨c, true, true, rn, .usr, rs, start, none, []⟩
    have form : blockForm (.ldm2 c p u false rn list) s = some b :=
      if_pos (allowed_iff.2 ⟨banked_iff.2 (not_or.2 ⟨usr, sys⟩), hrs, hr⟩)
    have d := blockForm_describes form
    have run := (d.exec hc).trans (d.run_load rfl granted finishLoad)
    have noPc : b.loadsPc s = none := if_neg (pc_notMem_short list)
    rw [noPc] at run
    obtain ⟨flags, bytes, rest⟩ := afterLoad_frame none s (b.loaded s).regs
    obtain ⟨⟨follows, -⟩, nothing⟩ := inSequence_afterLoad s (b.loaded s).regs
    exact ⟨_, run, d.blockInRegs_loaded, fun k hk => b.regsKeptBut_loaded s k (by simpa [b, baseIf] using hk), rfl,
      follows, nothing, flags, bytes, rest⟩

/-! ## LDM (3) (R236) -/

section
variable {q : Psr} {s : State} (hq : s.spsrOf s.mode = some q) (a : Word)
include hq

theorem exceptionReturn_illegal (hm : modeOfBits q.m = none) : exceptionReturn a s = .fault .illegalMode := by
  rw [exceptionReturn, hq]
  exact if_pos hm

theorem exceptionReturn_thumb (hm : modeOfBits q.m ≠ none) (ht : q.t = true) :
    exceptionReturn a s = .next ((s.withCpsr q).branchTo (halfAligned a)) := by
  rw [exceptionReturn, hq]
  simp only [hm, ht, if_true, if_false]

theorem exceptionReturn_arm (hm : modeOfBits q.m ≠ none) (ht : q.t = false) :
    exceptionReturn a s = jumpExact a (s.withCpsr q) := by
  rw [exceptionReturn, hq]
  simp only [hm, ht, if_false, Bool.false_eq_true]

end

theorem pc_mem_returnRegisters (list : BitVec 15) : 15 ∈ returnRegisters list := by
  simp [returnRegisters, mem_registersOf]

/-- Settles O45: the registers are loaded in the mode that is left, and the return comes after them. -/
theorem loadMultipleReturn : Obligations.LoadMultipleReturn := by
  unfold Obligations.LoadMultipleReturn
  intro c p u w rn list q s hc hr hq base rs start target i hw granted
  let b : Block := ⟨c, true, false, rn, s.mode, rs, start, if w then some (specFinal u base rs.length) else none, []⟩
  have pc : 15 ∈ rs := pc_mem_returnRegisters list
  have banked : ¬ (s.mode = .usr ∨ s.mode = .sys) := fun h => by simp [State.spsrOf_eq_none h] at hq
  have form : blockForm i s = some b := if_pos (allowed_iff.2
    ⟨Bool.and_eq_true_iff.2 ⟨baseApart_iff.2 hw, banked_iff.2 banked⟩, List.ne_nil_of_mem pc, hr⟩)
  have d := blockForm_describes form
  have target_eq : b.loadsPc s = some target := if_pos pc
  have run : exec i s = exceptionReturn target (b.loaded s) := by
    refine (d.exec hc).trans ((d.run_load rfl granted finishReturn).trans ?_)
    rw [target_eq]
    rfl
  have hq : (b.loaded s).spsrOf (b.loaded s).mode = some q := hq
  rw [run]
  refine ⟨exceptionReturn_illegal hq target, fun hm ht ha => ?_, fun hm ha => ?_⟩
  · rw [exceptionReturn_arm hq target hm ht, jumpExact_misaligned ha]
  · let landing := if q.t then lowOneCleared target else target
    have lands : exceptionReturn target (b.loaded s) = .next (((b.loaded s).withCpsr q).branchTo landing) := by
      cases ht : q.t with
      | true => simp only [exceptionReturn_thumb hq target hm ht, landing, ht, if_true, halfAligned_eq_lowOneCleared]
      | false =>
        have aligned : target.toNat % 4 = 0 := by simpa [ht] using ha
        rw [exceptionReturn_arm hq target hm ht, jumpExact_aligned aligned]
        simp only [landing, ht, Bool.false_eq_true, if_false]
    refine ⟨_, lands, rfl, wentTo_branchTo _ _, d.blockInRegs_loaded, fun writes => ?_, ?_, ⟨rfl, rfl, rfl, rfl, rfl⟩,
      fun _ => rfl, ⟨rfl, rfl, rfl, rfl⟩⟩
    · exact d.base_loaded (if_pos writes) (regIndex_notMem_placesOf s.mode hr (hw writes))
    · have kept := b.regsKeptBut_loaded s
      simp only [b, isSome_ite] at kept
      exact kept

/-! ## A block store -/

/-- The words granted are stored, and the base is written back. -/
def blockStored (rn : Reg) (a : Word) (vs : List Word) (wb : Option Word) (s : State) : State :=
  (s.wordsStored (grantedCells s a vs)).writtenBack rn wb

theorem blockStored_eq (rn : Reg) (a : Word) (vs : List Word) (wb : Option Word) (s : State) :
    blockStored rn a vs wb s =
      { s.writtenBack rn wb with
        mem := (s.wordsStored (grantedCells s a vs)).mem
        currentStores := (s.wordsStored (grantedCells s a vs)).currentStores } := by
  rw [blockStored, State.wordsStored_eq]
  cases wb with
  | none => rfl
  | some v =>
    simp only [State.writtenBack, State.writeReg]
    split <;> rfl

theorem storeBlock_granted (rn : Reg) {a : Word} {vs : List Word} (wb : Option Word) {s : State}
    (h : blockGranted .write a vs.length s) : storeBlock rn a vs wb s = .next (blockStored rn a vs wb s).advance := by
  have none : ((blockCells a vs).any fun c => s.access .write s.privilege c.1 4 = .aborted) = false := by
    refine List.any_eq_false.2 fun c hc => ?_
    obtain ⟨k, hk, rfl⟩ := mem_blockCells.1 hc
    have granted : s.access .write s.privilege (blockAddress a k) 4 = .granted := h k hk
    simp only [granted, decide_eq_true_eq]
    exact nofun
  rw [storeBlock, writeBlock_mapped rfl fun k hk => by rw [h k hk]; exact nofun, none]
  rfl

theorem storeBlock_aborted (rn : Reg) {a : Word} {vs : List Word} (wb : Option Word) {s : State}
    (h : storeAborts a vs.length s) :
    storeBlock rn a vs wb s = raised .dataAbort takeDataAbort (blockStored rn a vs wb s) := by
  obtain ⟨mapped, k, hk, aborted⟩ := h
  have some : ((blockCells a vs).any fun c => s.access .write s.privilege c.1 4 = .aborted) = true :=
    List.any_eq_true.2 ⟨_, mem_blockCells.2 ⟨k, hk, rfl⟩, decide_eq_true aborted⟩
  rw [storeBlock, writeBlock_mapped rfl mapped, some]
  rfl

theorem storeBlock_unmapped (rn : Reg) {a : Word} {vs : List Word} (wb : Option Word) {s : State} {k : Nat}
    (hk : k < vs.length) (h : blockAnswer .write a s k = .unmapped) :
    storeBlock rn a vs wb s = .fault .unmapped := by
  rw [storeBlock, writeBlock_unmapped rfl hk h]

/-! ## STM (1) and STM (2) (R238, R239) -/

/-- Besides memory, its record, the base and the pc, a block store changes nothing. -/
theorem blockStored_frame (rn : Reg) (a : Word) (vs : List Word) (wb : Option Word) (s : State) :
    let t := (blockStored rn a vs wb s).advance
    regsKeptBut (baseIf wb.isSome s.mode rn) s t ∧ followsOnPlain s t ∧ flagsKept s t ∧ restKept s t := by
  refine ⟨fun k hk => ?_, followsOnPlain_advance ?_ ?_ ?_, flagsKept_of_cpsr ?_, ?_⟩
  · rw [State.advance_regs, blockStored_eq]
    exact State.regs_writtenBack_of_ne s wb hk
  all_goals simp [blockStored_eq, restKept, controlKept, spsrsKept, outsideKept]

/-- The mark of a User-bank transfer is apart from all of these. -/
theorem marked_frame {ks : List (Fin 30)} {s t : State} (regs : regsKeptBut ks s t) (follows : followsOn s t)
    (flags : flagsKept s t) (rest : restKept s t) :
    let u : State := { t with afterUserBank := true }
    regsKeptBut ks s u ∧ followsOn s u ∧ flagsKept s u ∧ restKept s u :=
  ⟨regs, follows, flags, rest⟩

/-- Settles O46: the values are those from before the instruction, and the base is written after memory. -/
theorem storeMultiple : Obligations.StoreMultiple := by
  unfold Obligations.StoreMultiple
  intro c p u w rn list s hc hr hs base rs start hrs granted
  have short : rs.length ≤ 2 ^ 30 := (ascending_registersOf list).length_le.trans (by norm_num)
  refine ⟨fun hw => ?_, fun usr sys => ?_⟩
  · let b : Block := ⟨c, false, false, rn, s.mode, rs, start, if w then some (specFinal u base rs.length) else none,
      rs.map fun r => specStoredValue r s⟩
    have form : blockForm (.stm1 c p u w rn list) s = some b := if_pos (allowed_iff.2 ⟨baseFirst_iff.2 hw, hrs, hr⟩)
    have d := blockForm_describes form
    have run := (d.exec hc).trans (storeBlock_granted rn b.final (by simpa [b] using granted))
    obtain ⟨regs, follows, flags, rest⟩ := blockStored_frame rn start b.values b.final s
    refine ⟨_, run, ?_, fun writes => ?_, ?_, follows, flags, rest⟩
    · exact blockInMemory_of_mem hs (by simpa using short) (by simp [blockStored_eq, b]) (by simp [blockStored_eq])
        (by simpa using granted) (by simp [blockStored_eq, b])
    · rw [State.readReg_advance hr, blockStored]
      simp only [b, writes, if_true]
      exact State.readReg_writeReg_same hr _ _
    · simpa only [isSome_ite, b] using regs
  · let b : Block := ⟨c, false, true, rn, .usr, rs, start, none,
      rs.map fun r => if r = 15 then specStoredValue 15 s else s.regs[regIndex .usr r]⟩
    have form : blockForm (.stm2 c p u false rn list) s = some b :=
      if_pos (allowed_iff.2 ⟨banked_iff.2 (not_or.2 ⟨usr, sys⟩), hrs, hr⟩)
    have d := blockForm_describes form
    have run := (d.exec hc).trans
      (congrArg leavesUserBank (storeBlock_granted rn b.final (by simpa [b] using granted)))
    obtain ⟨regs, ⟨follows, -⟩, flags, rest⟩ := blockStored_frame rn start b.values b.final s
    obtain ⟨regs, follows, flags, rest⟩ := marked_frame regs follows flags rest
    refine ⟨_, run, ?_, regs, rfl, follows, flags, rest⟩
    exact blockInMemory_of_mem hs (by simpa using short) (by simp [blockStored_eq, b]) (by simp [blockStored_eq])
      (by simpa using granted) (by simp [blockStored_eq, b])

end Sys2Proof.Machine
end

section
/-! SUPPORT. What a block transfer refuses (45_arm_block_transfer.md R233, R236, R237, R239), and what is refused right
after a User-bank transfer (R244, 70_reset_and_hazards.md R413). -/

namespace Sys2Proof.Machine

/-! ## The refusals of LDM and STM -/

theorem setWidth_eq_zero_iff {short : BitVec 15} : short.setWidth 16 = 0#16 ↔ short = 0 := by
  rw [BitVec.toNat_eq, BitVec.toNat_eq, BitVec.toNat_setWidth, Nat.mod_eq_of_lt (by have := short.isLt; omega)]
  rfl

/-- Settles O48: the checks in the order in which the model makes them. -/
theorem blockRefusals : Obligations.BlockRefusals := by
  unfold Obligations.BlockRefusals
  intro c p u w rn list short s hc rs rs3 userless
  have long : list ≠ 0 → rs ≠ [] := mt registersOf_eq_nil_iff.1
  have shorter : short ≠ 0 → registersOf (short.setWidth 16) ≠ [] :=
    fun h => mt registersOf_eq_nil_iff.1 (mt setWidth_eq_zero_iff.1 h)
  have some3 : rs3 ≠ [] := List.ne_nil_of_mem (pc_mem_returnRegisters short)
  have pass (body : Result) : conditional c s body = body := conditional_pass hc body
  refine ⟨fun empty => ?_, fun empty => ?_, fun h => ?_, fun h => ?_, ?_, fun hr => ?_⟩
  · have none : blockRefusal rn rs = some .emptyList :=
      (congrArg (blockRefusal rn) (registersOf_eq_nil_iff.2 empty)).trans (blockRefusal_nil rn)
    refine ⟨(pass _).trans ?_, (pass _).trans ?_, (pass _).trans ?_⟩ <;> exact congrArg (guarded · _) none
  · refine (pass _).trans ?_
    rw [registersOf_eq_nil_iff.2 (setWidth_eq_zero_iff.2 empty), blockRefusal_nil]
    rfl
  · refine ⟨(pass _).trans ?_, (pass _).trans ?_, (pass _).trans ?_⟩ <;>
      exact congrArg (guarded · _) (blockRefusal_pc (long h))
  · exact (pass _).trans (congrArg (guarded · _) (blockRefusal_pc (shorter h)))
  · exact (pass _).trans (congrArg (guarded · _) (blockRefusal_pc some3))
  · have allowed {qs : List Reg} (h : qs ≠ []) (body : Result) : guarded (blockRefusal rn qs) body = body := by
      rw [blockRefusal_eq_none h hr]
      rfl
    refine ⟨fun h => ?_, fun h => ?_, fun h first => ?_, fun h user => ?_, fun h user => ?_, fun h user => ?_,
      fun h user => ?_, fun apart user => ?_⟩
    · refine (pass _).trans ((allowed (List.ne_nil_of_mem h) _).trans ?_)
      exact congrArg (guarded · _) (loadBaseRefusal_of_mem h)
    · refine (pass _).trans ((allowed some3 _).trans ?_)
      exact congrArg (guarded · _) (loadBaseRefusal_of_mem h)
    · refine (pass _).trans ((allowed (List.ne_nil_of_mem h) _).trans ?_)
      exact congrArg (guarded · _) (storeBaseRefusal_of_mem h first)
    · refine (pass _).trans ((allowed (shorter h) _).trans ?_)
      exact congrArg (guarded · _) (userBankRefusal_mode user w)
    · refine (pass _).trans ((allowed (long h) _).trans ?_)
      exact congrArg (guarded · _) (userBankRefusal_mode user w)
    · refine (pass _).trans ((allowed (shorter h) _).trans ?_)
      exact congrArg (guarded · _) (userBankRefusal_writeBack user)
    · refine (pass _).trans ((allowed (long h) _).trans ?_)
      exact congrArg (guarded · _) (userBankRefusal_writeBack user)
    · refine (pass _).trans ((allowed some3 _).trans ?_)
      refine (congrArg (guarded · _) (loadBaseRefusal_eq_none apart)).trans ?_
      have none : (s.spsrOf s.mode).isNone = true := by rw [State.spsrOf_eq_none user]; rfl
      exact congrArg (guarded · _) (if_pos none)

/-! ## The step right after a User-bank transfer -/

theorem bankedIn_iff {m : Mode} {r : Reg} :
    bankedIn m r = true ↔ r = 13 ∨ r = 14 ∨ (m = .fiq ∧ 8 ≤ r.toNat ∧ r.toNat ≤ 12) := by
  simp [bankedIn, and_assoc, or_assoc]

theorem touchesBanked_of_mem {i : Instr} {s : State} {c : Cond} {rs : List Reg} {r : Reg}
    (hi : namedRegisters i s = some (c, rs)) (hc : condHolds c s.cpsr = true) (hr : r ∈ rs)
    (banked : bankedIn s.mode r = true) : touchesBanked i s = true := by
  rw [touchesBanked, hi]
  simpa [hc] using ⟨r, hr, banked⟩

theorem touchesBanked_of_nil {i : Instr} {s : State} {c : Cond} (hi : namedRegisters i s = some (c, [])) :
    touchesBanked i s = false := by
  rw [touchesBanked, hi]
  simp

section
variable {s : State} {i : Instr} (hs : undisturbed s) (hw : s.inWindow = false) (hi : decode (codeIn s.mem s) = .ok i)
include hs hw hi

theorem step_hazard (ha : s.afterUserBank = true) (touches : touchesBanked i s = true) :
    step s = .refused .bankedAfterUserBank := by
  rw [step_undisturbed hs]
  refine runInstruction_hazard (i := i) ?_ ?_
  · rwa [fetched_startOf, State.fetchMemory_outside hw]
  · rw [touchesBanked_startOf, touches, Bool.and_true]
    exact ha

theorem step_exec (untouched : touchesBanked i s = false) : step s = exec i (startOf s) := by
  have outside : (startOf s).started = startOf s := if_neg (by
    rw [show (startOf s).inWindow = s.inWindow from rfl, hw]
    exact nofun)
  rw [step_undisturbed hs, runInstruction_exec (i := i) ?_ ?_, outside]
  · rwa [fetched_startOf, State.fetchMemory_outside hw]
  · rw [touchesBanked_startOf, untouched, Bool.and_false]

end

/-- Settles O9: SWI and an undefined instruction name no register, and are refused where they would enter the mode they
are in. -/
theorem hazardRefusal : Obligations.HazardRefusal := by
  unfold Obligations.HazardRefusal
  intro s i c hs hw ha hi hc
  refine ⟨fun rs r named hr banked => ?_, ?_, ?_⟩
  · exact step_hazard hs hw hi ha (touchesBanked_of_mem named hc hr (bankedIn_iff.2 banked))
  · rintro n rfl svc
    rw [step_exec hs hw hi (touchesBanked_of_nil rfl)]
    refine (conditional_pass (s := startOf s) hc _).trans ?_
    exact raised_refused (s := startOf s) (e := .swi) ha svc takeSwi
  · rintro hi' lo rfl und
    rw [step_exec hs hw hi (touchesBanked_of_nil rfl)]
    refine (conditional_pass (s := startOf s) hc _).trans ?_
    exact raised_refused (s := startOf s) (e := .undefined) ha und takeUndefined

end Sys2Proof.Machine
end

section
/-! SUPPORT. What an abort leaves of a block transfer, of LDC and of STC (45_arm_block_transfer.md R242, R244,
46_arm_swap_swi_coproc.md R254, R255, 60_exceptions.md R367), and their fault where nothing is mapped. -/

namespace Sys2Proof.Machine

/-! ## Data Abort after a transfer -/

/-- An instruction that aborts in a state `v`, with the mark and the mode it began with, enters Data Abort from there,
or is refused. -/
theorem raised_dataAbort {s v : State} (mark : v.afterUserBank = s.afterUserBank) (mode : v.mode = s.mode) :
    (¬ ownBank .abt s → raised .dataAbort takeDataAbort v = .next (takeDataAbort v)) ∧
    (ownBank .abt s → raised .dataAbort takeDataAbort v = .refused .bankedAfterUserBank) := by
  have same : ownBank .abt s ↔ v.afterUserBank = true ∧ v.mode = Exception.dataAbort.mode := by
    rw [mark, mode]
    rfl
  rw [same]
  exact ⟨fun own => raised_taken own takeDataAbort, fun ⟨after, abt⟩ => raised_refused after abt takeDataAbort⟩

theorem dataAborted_takeDataAbort (v : State) : dataAborted v (takeDataAbort v) :=
  entered_enterException .dataAbort _ v

theorem Block.marked_dataAbort (b : Block) {s v : State} (mark : v.afterUserBank = s.afterUserBank)
    (mode : v.mode = s.mode) :
    (¬ ownBank .abt s → ∃ t, b.marked (raised .dataAbort takeDataAbort v) = .next t ∧ dataAborted v t ∧
      t.afterUserBank = b.userBank) ∧
    (ownBank .abt s → b.marked (raised .dataAbort takeDataAbort v) = .refused .bankedAfterUserBank) := by
  obtain ⟨taken, refused⟩ := raised_dataAbort mark mode
  cases hb : b.userBank with
  | false =>
    have plain (r : Result) : b.marked r = r := if_neg (by simp [hb])
    rw [plain]
    exact ⟨fun own => ⟨_, taken own, dataAborted_takeDataAbort v, rfl⟩, refused⟩
  | true =>
    have marks (r : Result) : b.marked r = leavesUserBank r := if_pos hb
    rw [marks]
    refine ⟨fun own => ?_, fun own => ?_⟩
    · rw [taken own]
      exact ⟨_, rfl, dataAborted_takeDataAbort v, rfl⟩
    · rw [refused own]
      rfl

/-! ## An aborted block load -/

/-- The words of the first `j` transfers in their registers, and the base as the rule leaves it. -/
def Block.abortedAt (b : Block) (j : Nat) (s : State) : State :=
  { s with
    regs := (loadedRegs b.bank s.regs (b.rs.zip (s.wordsAt b.start j))).set (regIndex s.mode b.rn)
      (b.final.getD (s.readReg b.rn)) }

theorem Block.run_load_unmapped {b : Block} {s : State} {j : Nat} (load : b.load = true)
    (h : loadStopsAt b.start b.rs.length j .unmapped s) (finish : Option Word → State → Result) :
    b.run finish s = .fault .unmapped := by
  rw [Block.run, load, if_pos rfl, loadBlock, readWords_stopped h nofun, Block.marked]
  split <;> rfl

section
variable {b : Block} {i : Instr} {s : State} (d : b.Describes i s) {j : Nat}
include d

theorem Block.Describes.run_load_aborted (load : b.load = true) (h : loadStopsAt b.start b.rs.length j .aborted s)
    (finish : Option Word → State → Result) :
    b.run finish s = b.marked (raised .dataAbort takeDataAbort (b.abortedAt j s)) := by
  have placed := d.place_eq (t := s) rfl (b.rs.zip (s.wordsAt b.start j))
  rw [Block.run, load, if_pos rfl, loadBlock, readWords_stopped h nofun]
  simp only
  rw [placed, abortedLoad, State.writeReg, if_neg d.base]
  rfl

/-- r15 is the last of its list, so no transfer before an abort is to it. -/
theorem Block.Describes.loadedUpTo_abortedAt (hj : j < b.rs.length) : b.loadedUpTo j s (b.abortedAt j s) := by
  have others {k : Fin 30} (h : k ≠ regIndex s.mode b.rn) :
      (b.abortedAt j s).regs[k] = (loadedRegs b.bank s.regs (b.rs.zip (s.wordsAt b.start j)))[k] :=
    Vector.getElem_set_ne (regIndex s.mode b.rn).isLt k.isLt fun e => h (Fin.ext e.symm)
  refine ⟨Vector.getElem_set_self _, fun k hk lt apart => ?_, fun k hk => ?_⟩
  · rw [others apart]
    exact getElem_loadedRegs_zip d.up hj.le lt b.bank s.regs s b.start (d.up.ne_pc (by omega))
  · have ⟨base, loads⟩ := List.ne_and_not_mem_of_not_mem_cons hk
    rw [others base]
    exact getElem_loadedRegs_of_notMem (by rwa [map_fst_zip_wordsAt hj.le])

end

/-! ## An aborted block store -/

theorem Block.run_store_aborted {b : Block} {s : State} (load : b.load = false)
    (h : storeAborts b.start b.values.length s) (finish : Option Word → State → Result) :
    b.run finish s = b.marked (raised .dataAbort takeDataAbort (blockStored b.rn b.start b.values b.final s)) := by
  rw [Block.run, load, if_neg nofun, storeBlock_aborted b.rn b.final h]

theorem Block.run_store_unmapped {b : Block} {s : State} (load : b.load = false) {k : Nat}
    (hk : k < b.values.length) (h : blockAnswer .write b.start s k = .unmapped)
    (finish : Option Word → State → Result) : b.run finish s = .fault .unmapped := by
  rw [Block.run, load, if_neg nofun, storeBlock_unmapped b.rn b.final hk h, Block.marked]
  split <;> rfl

theorem regs_blockStored (rn : Reg) (a : Word) (vs : List Word) (wb : Option Word) (s : State) :
    (blockStored rn a vs wb s).regs = (s.writtenBack rn wb).regs := by
  rw [blockStored_eq]

theorem regs_writtenBack_congr {s t : State} (hr : t.regs = s.regs) (hc : t.cpsr = s.cpsr) (rn : Reg)
    (wb : Option Word) : (t.writtenBack rn wb).regs = (s.writtenBack rn wb).regs := by
  cases wb with
  | none => exact hr
  | some v =>
    simp only [State.writtenBack, State.writeReg, State.mode_congr hc, hr]
    split
    · exact hr
    · rfl

theorem base_writtenBack {rn : Reg} (hr : rn ≠ 15) (wb : Option Word) (s : State) :
    (s.writtenBack rn wb).regs[regIndex s.mode rn] = wb.getD (s.readReg rn) := by
  cases wb with
  | none => exact (State.readReg_regs hr s).symm
  | some v => exact State.regs_writtenBack_same s hr v

theorem baseIf_subset (w : Bool) (m : Mode) (rn : Reg) : baseIf w m rn ⊆ [regIndex m rn] := by
  cases w <;> simp [baseIf]

/-! ## LDC and STC (46 R254, R255) -/

/-- The coprocessor's answer taken. -/
def State.answered (s : State) (rest : List CoprocReply) : State := { s with replies := rest }

section
variable (s : State) (rest : List CoprocReply)

@[simp] theorem State.answered_mem : (s.answered rest).mem = s.mem := rfl
@[simp] theorem State.answered_plat : (s.answered rest).plat = s.plat := rfl
@[simp] theorem State.answered_sent : (s.answered rest).sent = s.sent := rfl
@[simp] theorem State.readReg_answered (r : Reg) : (s.answered rest).readReg r = s.readReg r := rfl
@[simp] theorem State.wordsAt_answered (a : Word) (n : Nat) : (s.answered rest).wordsAt a n = s.wordsAt a n := rfl

end

theorem offered_accepted {c : Cond} {cp : BitVec 4} {s : State} (h : offersTo c cp s) {first : Word} {more : List Word}
    {rest : List CoprocReply} (hr : s.replies = .accept first more :: rest)
    (accept : Word → List Word → State → Result) :
    offered c cp none accept s = accept first more (s.answered rest) := by
  obtain ⟨hc, debug, present⟩ := h
  have there : (!s.plat.coprocs.contains cp) = false := by simpa using present
  rw [offered, conditional_pass hc, if_neg debug, there, if_neg nofun, hr]
  rfl

theorem coprocTransferRefusal_eq_none {p u w : Bool} {rn : Reg} (hw : w = true → rn ≠ 15)
    (form : p = true ∨ w = true ∨ u = true) : coprocTransferRefusal p u w rn = none := by
  have noPc : (w && rn == 15) = false := by cases w <;> simp_all
  have formed : (!p && !w && !u) = false := by cases p <;> cases w <;> simp_all
  rw [coprocTransferRefusal, noPc, formed]
  rfl

theorem coprocAddressOf_eq (p u w : Bool) (base : Word) (off : BitVec 8) :
    coprocAddressOf p u w base off =
      ⟨coprocAddress p u base off, if w then some (coprocBase u base off) else none⟩ := by
  rw [coprocAddressOf, shiftLeft_two_eq_mul]
  rfl

/-- The words passed to the coprocessor, and the base written back (R254). -/
def coprocSent (cp : BitVec 4) (ws : List Word) (rn : Reg) (wb : Option Word) (s : State) : State :=
  (s.sending cp ws).writtenBack rn wb

theorem regs_coprocSent (cp : BitVec 4) (ws : List Word) (rn : Reg) (wb : Option Word) (s : State) :
    (coprocSent cp ws rn wb s).regs = (s.writtenBack rn wb).regs :=
  regs_writtenBack_congr (s := s) (t := s.sending cp ws) rfl rfl rn wb

section
variable {c : Cond} {p u n w : Bool} {rn crd : Reg} {cp : BitVec 4} {off : BitVec 8} {first : Word} {more : List Word}
  {rest : List CoprocReply} {s : State} (offers : offersTo c cp s) (hr : s.replies = .accept first more :: rest)
  (hw : w = true → rn ≠ 15) (form : p = true ∨ w = true ∨ u = true)
include offers hr hw form

theorem exec_ldc_aborted {j : Nat}
    (h : loadStopsAt (coprocAddress p u (s.readReg rn) off) (more.length + 1) j .aborted (s.answered rest)) :
    exec (.ldc c p u n w rn crd cp off) s = raised .dataAbort takeDataAbort
      (coprocSent cp (s.wordsAt (coprocAddress p u (s.readReg rn) off) j) rn
        (if w then some (coprocBase u (s.readReg rn) off) else none) (s.answered rest)) := by
  change execLdc c p u n w rn crd cp off s = _
  rw [execLdc, coprocTransferRefusal_eq_none hw form, offered_accepted offers hr]
  simp only [coprocAddressOf_eq, State.readReg_answered, readWords_stopped h nofun, State.wordsAt_answered]
  rfl

theorem exec_ldc_unmapped {j : Nat}
    (h : loadStopsAt (coprocAddress p u (s.readReg rn) off) (more.length + 1) j .unmapped (s.answered rest)) :
    exec (.ldc c p u n w rn crd cp off) s = .fault .unmapped := by
  change execLdc c p u n w rn crd cp off s = _
  rw [execLdc, coprocTransferRefusal_eq_none hw form, offered_accepted offers hr]
  simp only [coprocAddressOf_eq, State.readReg_answered, readWords_stopped h nofun]

theorem exec_stc_accepted :
    exec (.stc c p u n w rn crd cp off) s =
      storeBlock rn (coprocAddress p u (s.readReg rn) off) (first :: more)
        (if w then some (coprocBase u (s.readReg rn) off) else none) (s.answered rest) := by
  change execStc c p u n w rn crd cp off s = _
  rw [execStc, coprocTransferRefusal_eq_none hw form, offered_accepted offers hr]
  simp only [coprocAddressOf_eq, State.readReg_answered]

end

/-! ## What is left in the state in which a transfer aborts -/

/-- No more than registers, memory and its record, and what passes between the core and a coprocessor, differs. -/
structure OnlyTransferred (s v : State) : Prop where
  mark : v.afterUserBank = s.afterUserBank
  cur : v.cur = s.cur
  cpsr : v.cpsr = s.cpsr
  spsrs : spsrsKept s v
  plat : v.plat = s.plat
  lines : v.lines = s.lines

theorem onlyTransferred_blockStored (rn : Reg) (a : Word) (vs : List Word) (wb : Option Word) (s : State) :
    OnlyTransferred s (blockStored rn a vs wb s) := by
  rw [blockStored_eq]
  constructor <;> simp [spsrsKept]

theorem onlyTransferred_coprocSent (cp : BitVec 4) (ws : List Word) (rn : Reg) (wb : Option Word) (s : State) :
    OnlyTransferred s (coprocSent cp ws rn wb s) := by
  rw [coprocSent]
  constructor <;> simp [spsrsKept]

/-- An aborted block transfer, by the state `v` in which it aborts. -/
theorem Block.aborts_of_raised {b : Block} {i : Instr} {s v : State}
    (run : exec i s = b.marked (raised .dataAbort takeDataAbort v)) (kept : OnlyTransferred s v)
    (replies : v.replies = s.replies) (sent : v.sent = s.sent) {left : State → Prop} (hleft : left v) :
    (¬ ownBank .abt s → ∃ t v, exec i s = .next t ∧ dataAborted v t ∧ t.afterUserBank = b.userBank ∧
      v.cur = s.cur ∧ v.cpsr = s.cpsr ∧ spsrsKept s v ∧ outsideKept s v ∧ left v) ∧
    (ownBank .abt s → exec i s = .refused .bankedAfterUserBank) := by
  obtain ⟨taken, refused⟩ := b.marked_dataAbort kept.mark (State.mode_congr kept.cpsr)
  refine ⟨fun own => ?_, fun own => run.trans (refused own)⟩
  obtain ⟨t, next, entered, after⟩ := taken own
  exact ⟨t, v, run.trans next, entered, after, kept.cur, kept.cpsr, kept.spsrs,
    ⟨kept.plat, kept.lines, replies, sent⟩, hleft⟩

/-- An aborted LDC or STC, likewise. -/
theorem coproc_aborts_of_raised {i : Instr} {s v : State} {rn : Reg} {w : Bool} {final : Word}
    {rest : List CoprocReply} (run : exec i s = raised .dataAbort takeDataAbort v) (hw : w = true → rn ≠ 15)
    (kept : OnlyTransferred (s.answered rest) v) (replies : v.replies = (s.answered rest).replies)
    (regs : v.regs = ((s.answered rest).writtenBack rn (if w then some final else none)).regs)
    {left : State → Prop} (hleft : left v) :
    (¬ ownBank .abt s → ∃ t v, exec i s = .next t ∧ dataAborted v t ∧ t.afterUserBank = false ∧ v.cur = s.cur ∧
      v.cpsr = s.cpsr ∧ spsrsKept s v ∧ v.plat = s.plat ∧ v.lines = s.lines ∧ v.replies = rest ∧
      (w = true → v.readReg rn = final) ∧ regsKeptBut (baseIf w s.mode rn) s v ∧ left v) ∧
    (ownBank .abt s → exec i s = .refused .bankedAfterUserBank) := by
  obtain ⟨taken, refused⟩ := raised_dataAbort (s := s) kept.mark (State.mode_congr kept.cpsr)
  refine ⟨fun own => ?_, fun own => run.trans (refused own)⟩
  refine ⟨_, v, run.trans (taken own), dataAborted_takeDataAbort v, rfl, kept.cur, kept.cpsr, kept.spsrs, kept.plat,
    kept.lines, replies, fun writes => ?_, fun k hk => ?_, hleft⟩
  · rw [if_pos writes] at regs
    have same := State.readReg_congr (s := (s.answered rest).writtenBack rn (some final)) (t := v) (hw writes)
      (State.mode_congr (by simp [kept.cpsr])) (by rw [regs])
    exact same.trans (State.readReg_writeReg_same (hw writes) _ final)
  · rw [regs]
    exact State.regs_writtenBack_of_ne _ _ (by rwa [isSome_ite])

/-- Settles O47: an abort ends a load at its word, and leaves its word out of a store. -/
theorem blockAbort : Obligations.BlockAbort := by
  unfold Obligations.BlockAbort
  constructor
  · intro i s b h hc n aborts
    have d := blockForm_describes h
    have run := d.exec hc
    refine ⟨fun load j => ⟨fun stop => ?_, fun stop => ?_⟩, fun load => ⟨fun hs abort => ?_, ?_⟩⟩
    · have ⟨lt, _, _⟩ := stop
      exact Block.aborts_of_raised (run.trans (d.run_load_aborted load stop _))
        ⟨rfl, rfl, rfl, ⟨rfl, rfl, rfl, rfl, rfl⟩, rfl, rfl⟩ rfl rfl ⟨fun _ => rfl, d.loadedUpTo_abortedAt lt⟩
    · exact run.trans (Block.run_load_unmapped load stop _)
    · have count := d.values load
      have short : b.values.length ≤ 2 ^ 30 := count ▸ d.up.length_le.trans (by norm_num)
      have aborted := run.trans (Block.run_store_aborted load (count ▸ abort) _)
      refine Block.aborts_of_raised aborted (onlyTransferred_blockStored _ _ _ _ s) (by simp [blockStored_eq])
        (by simp [blockStored_eq]) ⟨?_, ?_, fun k hk => ?_⟩
      · exact grantedInMemory_of_mem hs short (by rw [blockStored_eq]) (by simp [blockStored_eq])
      · rw [regs_blockStored, base_writtenBack d.base]
      · rw [regs_blockStored, State.regs_writtenBack_of_ne s _ (mt (baseIf_subset _ _ _ ·) hk)]
    · rintro ⟨k, hk, answer⟩
      exact run.trans (Block.run_store_unmapped load (by rwa [d.values load]) answer _)
  · intro c p u n w rn crd cp off first more rest s offers hr hw form bound base a count aborts
    have store := exec_stc_accepted (n := n) (crd := crd) (off := off) offers hr hw form
    refine ⟨fun j => ⟨fun stop => ?_, fun stop => ?_⟩, fun hs abort => ?_, ?_⟩
    · have aborted := exec_ldc_aborted (n := n) (crd := crd) offers hr hw form stop
      refine coproc_aborts_of_raised aborted hw (onlyTransferred_coprocSent _ _ _ _ _) (by simp [coprocSent])
        (regs_coprocSent _ _ _ _ _) ⟨fun k => by simp [coprocSent, State.readByte], ?_⟩
      simp only [coprocSent, State.writtenBack_sent, State.sending_sent, State.wordsAt, List.map_map]
      rfl
    · exact exec_ldc_unmapped offers hr hw form stop
    · have aborted := store.trans (storeBlock_aborted rn _ (s := s.answered rest) abort)
      have short : (first :: more).length ≤ 2 ^ 30 := by simpa using bound
      refine coproc_aborts_of_raised aborted hw (onlyTransferred_blockStored _ _ _ _ _) (by simp [blockStored_eq])
        (regs_blockStored _ _ _ _ _) ⟨by simp [blockStored_eq], ?_⟩
      exact grantedInMemory_of_mem (s := s.answered rest) hs short (by rw [blockStored_eq]) (by simp [blockStored_eq])
    · rintro ⟨k, hk, answer⟩
      exact store.trans (storeBlock_unmapped rn _ (s := s.answered rest) hk answer)

end Sys2Proof.Machine
end

section
/-! SUPPORT. Exceptions that an instruction raises with nothing done before: SWI and the undefined instructions
(46_arm_swap_swi_coproc.md R250, R258, 49_thumb_branch.md R343, R351); and the swaps (46 R246). -/

namespace Sys2Proof.Machine

/-! ## An instruction that raises an exception and does nothing else -/

/-- It enters the exception, or is refused where it would write r14 of the mode it is in (R244). -/
theorem exec_of_raised {i : Instr} {s : State} {e : Exception} {take : State → State} {ret : Word}
    (run : exec i s = raised e take s) (takes : take s = enterException e ret s) :
    (¬ ownBank e.mode s → ∃ t, exec i s = .next t ∧ entered e.mode e.mode.bits e.vector e.masksFiq ret s t ∧
      t.afterUserBank = false) ∧
    (ownBank e.mode s → exec i s = .refused .bankedAfterUserBank) := by
  refine ⟨fun own => ⟨_, run.trans (raised_taken own take), ?_⟩, fun ⟨after, mode⟩ =>
    run.trans (raised_refused after mode take)⟩
  rw [takes]
  exact ⟨entered_enterException e ret s, rfl⟩

theorem takeUndefined_eq (s : State) :
    takeUndefined s = enterException .undefined (s.cur + if s.cpsr.t then 2 else 4) s := by
  rw [takeUndefined, ofNat_size]

theorem takeSwi_eq (s : State) : takeSwi s = enterException .swi (s.cur + if s.cpsr.t then 2 else 4) s := by
  rw [takeSwi, ofNat_size]

/-- Settles O18: each instruction is the exception it raises. -/
theorem swiAndUndefined : Obligations.SwiAndUndefined := by
  unfold Obligations.SwiAndUndefined
  intro c n24 hi lo n8 h s next takes swiTaken undTaken
  have swi {i : Instr} (run : exec i s = raised .swi takeSwi s) : swiTaken i := exec_of_raised run (takeSwi_eq s)
  have und {i : Instr} (run : exec i s = raised .undefined takeUndefined s) : undTaken i :=
    exec_of_raised run (takeUndefined_eq s)
  exact ⟨fun hc => ⟨swi (conditional_pass hc _), und (conditional_pass hc _)⟩, swi rfl, und rfl, und rfl⟩

/-! ## What a swap refuses (R246) -/

theorem swapRefusal_of_pc {rn rd rm : Reg} (h : rn = 15 ∨ rd = 15 ∨ rm = 15) :
    swapRefusal rn rd rm = some .pcOperand := by
  rw [swapRefusal, pcRefusal_of_mem (by simpa [eq_comm] using h)]
  rfl

theorem swapRefusal_of_same {rn rd rm : Reg} (hn : rn ≠ 15) (hd : rd ≠ 15) (hm : rm ≠ 15)
    (h : rn = rm ∨ rn = rd) : swapRefusal rn rd rm = some .sameRegister := by
  rw [swapRefusal, pcRefusal_three hn hd hm]
  by_cases same : rn = rm
  · rw [same, sameRefusal_self]
    rfl
  · rw [sameRefusal_of_ne same, h.resolve_left same, sameRefusal_self]
    rfl

theorem swapRefusal_eq_none {rn rd rm : Reg} (hn : rn ≠ 15) (hd : rd ≠ 15) (hm : rm ≠ 15) (source : rn ≠ rm)
    (target : rn ≠ rd) : swapRefusal rn rd rm = none := by
  rw [swapRefusal, pcRefusal_three hn hd hm, sameRefusal_of_ne source, sameRefusal_of_ne target]
  rfl

/-! ## What a swap answers -/

section
variable {l : LoadKind} {k : StoreKind} {rn rd rm : Reg} {s : State} {answer : AccessKind → Grant}
  (read : s.access .read s.privilege (busAddress l.size (s.readReg rn)) l.size = answer .read)
  (write : s.access .write s.privilege (busAddress k.size (s.readReg rn)) k.size = answer .write)
include read write

theorem swap_aborted (h : answer .read = .aborted ∨ (answer .read = .granted ∧ answer .write = .aborted)) :
    swap l k rn rd rm s = raised .dataAbort takeDataAbort s := by
  rcases h with h | ⟨h, h'⟩
  · simp only [swap, read, h]
  · simp only [swap, read, h, write, h']

theorem swap_unmapped (h : answer .read = .unmapped ∨ (answer .read = .granted ∧ answer .write = .unmapped)) :
    swap l k rn rd rm s = .fault .unmapped := by
  rcases h with h | ⟨h, h'⟩
  · simp only [swap, read, h]
  · simp only [swap, read, h, write, h']

theorem swap_granted (h : answer .read = .granted) (h' : answer .write = .granted) :
    swap l k rn rd rm s = .next (((s.stored k (s.readReg rn) (s.readReg rm)).writeReg rd
      (s.loaded l (s.readReg rn))).advance) := by
  simp only [swap, read, write, h, h']

end

/-- A store and then a register written: what memory and the register hold, and what is left of the state before. -/
theorem stored_writeReg_frame {rd : Reg} (hd : rd ≠ 15) (k : StoreKind) (a v w : Word) {s : State}
    (hs : s.mem.wf = true) :
    let t := ((s.stored k a v).writeReg rd w).advance
    t.readReg rd = w ∧ specStored k a v s t ∧ regsKeptBut [regIndex s.mode rd] s t ∧ flagsKept s t ∧ restKept s t ∧
      followsOnPlain s t := by
  refine ⟨?_, specStored_stored hs (by simp) (by simp) (by simp), fun j hj => ?_, flagsKept_of_cpsr (by simp),
    by simp [restKept, controlKept, spsrsKept, outsideKept], followsOnPlain_advance (by simp) (by simp) (by simp)⟩
  · rw [State.readReg_advance hd, State.readReg_writeReg_same hd]
  · have other : j ≠ regIndex (s.stored k a v).mode rd := by simpa [State.mode_stored] using hj
    rw [State.advance_regs, State.regs_writeReg_of_ne _ w other, State.stored_regs]

/-- SWP and SWPB are one swap, of a word or of a byte. -/
theorem exec_swap (c : Cond) (byte : Bool) (rn rd rm : Reg) (s : State) :
    exec (if byte then .swpb c rn rd rm else .swp c rn rd rm) s =
      conditional c s (guarded (swapRefusal rn rd rm)
        (swap (if byte then .byte else .word) (if byte then .byte else .word) rn rd rm s)) := by
  cases byte <;> rfl

/-- A byte is asked for at its address, a word at its aligned address (20_memory.md R67, R68). -/
theorem access_swap (byte : Bool) (kind : AccessKind) (a : Word) (s : State) :
    let answer := if byte then s.access kind s.privilege a 1 else s.access kind s.privilege (lowTwoCleared a) 4
    let l : LoadKind := if byte then .byte else .word
    let k : StoreKind := if byte then .byte else .word
    s.access kind s.privilege (busAddress l.size a) l.size = answer ∧
      s.access kind s.privilege (busAddress k.size a) k.size = answer := by
  cases byte with
  | true => exact ⟨rfl, rfl⟩
  | false =>
    rw [← wordAligned_eq_lowTwoCleared]
    exact ⟨rfl, rfl⟩

/-- Settles O49: the answers to the read and to the write decide, and Rd is written after memory. -/
theorem swapEffect : Obligations.SwapEffect := by
  unfold Obligations.SwapEffect
  intro c byte rn rd rm s hc i a answer
  have run := (exec_swap c byte rn rd rm s).trans (conditional_pass hc _)
  refine ⟨fun pc => ?_, fun hn hd hm => ⟨fun same => ?_, fun source target => ?_⟩⟩
  · rw [run, swapRefusal_of_pc pc]
    rfl
  · rw [run, swapRefusal_of_same hn hd hm same]
    rfl
  · rw [swapRefusal_eq_none hn hd hm source target] at run
    obtain ⟨read, -⟩ := access_swap byte .read a s
    obtain ⟨-, write⟩ := access_swap byte .write a s
    refine ⟨fun aborted => ?_, fun unmapped => ?_, fun granted granted' hs => ?_⟩
    · exact exec_of_raised (e := .dataAbort) (run.trans (swap_aborted (answer := answer) read write aborted)) rfl
    · exact run.trans (swap_unmapped (answer := answer) read write unmapped)
    · obtain ⟨value, frame⟩ := stored_writeReg_frame hd (if byte then .byte else .word) a (s.readReg rm)
        (s.loaded (if byte then .byte else .word) a) hs
      exact ⟨_, run.trans (swap_granted (answer := answer) read write granted granted'),
        value.symm ▸ specLoaded_loaded _ a s, frame⟩

end Sys2Proof.Machine
end

section
/-! SUPPORT. The coprocessor instructions (46_arm_swap_swi_coproc.md R251 to R259): refused, undefined, made to wait, or
accepted, and what an accepted one moves. -/

namespace Sys2Proof.Machine

/-! ## A coprocessor instruction not accepted -/

/-- What a coprocessor that is there answers to the instruction. -/
def replied (accept : Word → List Word → State → Result) (s : State) : Result :=
  match s.replies with
  | [] => .next s
  | .busy :: rest => .next (s.answered rest)
  | .accept first more :: rest => accept first more (s.answered rest)

section
variable {c : Cond} {cp : BitVec 4} {s : State} (accept : Word → List Word → State → Result)

theorem offered_debug (hc : condHolds c s.cpsr = true) (forbidden : Option Refusal) :
    offered c 14 forbidden accept s = .refused .debugCoproc := by
  rw [offered, conditional_pass hc, if_pos rfl]

theorem offered_absent (hc : condHolds c s.cpsr = true) (debug : cp ≠ 14) (absent : cp ∉ s.plat.coprocs)
    (forbidden : Option Refusal) : offered c cp forbidden accept s = raised .undefined takeUndefined s := by
  have missing : (!s.plat.coprocs.contains cp) = true := by simpa using absent
  rw [offered, conditional_pass hc, if_neg debug, if_pos missing]

theorem offered_present (offers : offersTo c cp s) (forbidden : Option Refusal) :
    offered c cp forbidden accept s = guarded forbidden (replied accept s) := by
  obtain ⟨hc, debug, present⟩ := offers
  have there : ¬ (!s.plat.coprocs.contains cp) = true := by simpa using present
  rw [offered, conditional_pass hc, if_neg debug, if_neg there]
  rfl

theorem replied_nil (hr : s.replies = []) : replied accept s = .next s := by
  rw [replied, hr]

theorem replied_busy {rest : List CoprocReply} (hr : s.replies = .busy :: rest) :
    replied accept s = .next (s.answered rest) := by
  rw [replied, hr]

end

/-- The forms that R254 forbids have one of two refusals, and the others none. -/
theorem coprocTransferRefusal_cases (p u w : Bool) (rn : Reg) :
    if (w && rn == 15) || (!p && !w && !u) then
      coprocTransferRefusal p u w rn = some .pcOperand ∨ coprocTransferRefusal p u w rn = some .unindexedDown
    else coprocTransferRefusal p u w rn = none := by
  unfold coprocTransferRefusal
  cases w && rn == 15 <;> cases !p && !w && !u <;> simp

/-- Every coprocessor instruction is offered to its coprocessor. -/
theorem exec_coprocForm {i : Instr} {c : Cond} {cp : BitVec 4} {bad : Bool} (h : coprocForm i = some (c, cp, bad)) :
    ∃ forbidden accept, (∀ s, exec i s = offered c cp forbidden accept s) ∧
      if bad then forbidden = some .pcOperand ∨ forbidden = some .unindexedDown else forbidden = none := by
  unfold coprocForm at h
  split at h <;> cases h
  case h_1 op1 crn crd o2 crm =>
    exact ⟨none, _, fun s => show execCdp c op1 crn crd cp o2 crm s = _ from rfl, rfl⟩
  case h_2 o1 crn rd o2 crm =>
    exact ⟨none, _, fun s => show execMcr c o1 crn rd cp o2 crm s = _ from rfl, rfl⟩
  case h_3 o1 crn rd o2 crm =>
    exact ⟨none, _, fun s => show execMrc c o1 crn rd cp o2 crm s = _ from rfl, rfl⟩
  case h_4 p u n w rn crd off =>
    exact ⟨_, _, fun s => show execLdc c p u n w rn crd cp off s = _ from rfl, coprocTransferRefusal_cases p u w rn⟩
  case h_5 p u n w rn crd off =>
    exact ⟨_, _, fun s => show execStc c p u n w rn crd cp off s = _ from rfl, coprocTransferRefusal_cases p u w rn⟩

/-- Settles O52: the checks of an offer in the order in which the model makes them. -/
theorem coprocessorAbsentOrBusy : Obligations.CoprocessorAbsentOrBusy := by
  unfold Obligations.CoprocessorAbsentOrBusy
  intro i c cp bad s form hc
  obtain ⟨forbidden, accept, run, refusal⟩ := exec_coprocForm form
  refine ⟨?_, fun debug absent => ?_, fun offers hbad => ?_, fun offers hbad => ?_⟩
  · rintro rfl
    rw [run, offered_debug accept hc]
  · obtain ⟨taken, refused⟩ := exec_of_raised ((run s).trans (offered_absent accept hc debug absent forbidden))
      (takeUndefined_eq s)
    refine ⟨fun own => ?_, refused⟩
    obtain ⟨t, next, und, after⟩ := taken own
    exact ⟨t, next, after, und⟩
  · have present := (run s).trans (offered_present accept offers forbidden)
    rw [if_pos hbad] at refusal
    rcases refusal with rfl | rfl
    · exact .inl present
    · exact .inr present
  · obtain rfl : forbidden = none := by simpa [hbad] using refusal
    have present := (run s).trans (offered_present accept offers none)
    exact ⟨fun hr => present.trans (replied_nil accept hr), fun rest hr => present.trans (replied_busy accept hr)⟩

/-! ## Words sent to a coprocessor (R254, R256) -/

/-- Besides the base, what is sent and the pc, words sent to a coprocessor change nothing. -/
theorem coprocSent_frame (cp : BitVec 4) (ws : List Word) (rn : Reg) (wb : Option Word) (s : State) :
    let t := (coprocSent cp ws rn wb s).advance
    coprocKept s t ∧ t.replies = s.replies ∧ bytesKept s t ∧ inSequence s t ∧
      regsKeptBut (baseIf wb.isSome s.mode rn) s t ∧ flagsKept s t ∧ t.sent = s.sent ++ ws.map fun w => (cp, w) := by
  refine ⟨?_, ?_, fun a => ?_, inSequence_advance ?_ ?_ ?_ ?_, fun k hk => ?_, flagsKept_of_cpsr ?_, ?_⟩
  case refine_8 =>
    rw [State.advance_regs, regs_coprocSent]
    exact State.regs_writtenBack_of_ne s wb hk
  all_goals simp [coprocSent, coprocKept, controlKept, spsrsKept, State.readByte]

/-! ## CDP, MCR and MRC (R253, R256, R257) -/

section
variable {c : Cond} {cp : BitVec 4} {d : Word} {more : List Word} {rest : List CoprocReply} {s : State}
  (offers : offersTo c cp s) (hr : s.replies = .accept d more :: rest)
include offers hr

theorem exec_cdp_accepted (op1 : BitVec 4) (crn crd crm : Reg) (o2 : BitVec 3) :
    exec (.cdp c op1 crn crd cp o2 crm) s = .next (s.answered rest).advance := by
  change execCdp c op1 crn crd cp o2 crm s = _
  rw [execCdp, offered_accepted offers hr]

variable (o1 : BitVec 3) (crn crm : Reg) (o2 : BitVec 3)

theorem exec_mcr_accepted {rd : Reg} (hd : rd ≠ 15) :
    exec (.mcr c o1 crn rd cp o2 crm) s = .next (((s.answered rest).sending cp [s.readReg rd]).advance) := by
  change execMcr c o1 crn rd cp o2 crm s = _
  rw [execMcr, offered_accepted offers hr, if_neg hd, State.readReg_answered]

theorem exec_mcr_accepted_pc :
    exec (.mcr c o1 crn 15 cp o2 crm) s =
      .next (((s.answered rest).drawn.sending cp [Config.sentPc s.draws]).advance) := by
  change execMcr c o1 crn 15 cp o2 crm s = _
  rw [execMcr, offered_accepted offers hr, if_pos rfl]
  rfl

theorem exec_mrc_accepted {rd : Reg} (hd : rd ≠ 15) :
    exec (.mrc c o1 crn rd cp o2 crm) s = .next (((s.answered rest).writeReg rd d).advance) := by
  change execMrc c o1 crn rd cp o2 crm s = _
  rw [execMrc, offered_accepted offers hr, if_neg hd]

theorem exec_mrc_accepted_pc :
    exec (.mrc c o1 crn 15 cp o2 crm) s =
      .next (((s.answered rest).withCpsr (s.cpsr.withFlagField d)).advance) := by
  change execMrc c o1 crn 15 cp o2 crm s = _
  rw [execMrc, offered_accepted offers hr, if_pos rfl]
  rfl

end

/-- Settles O53: with its answer taken, each instruction changes what its rule names and goes on. -/
theorem coprocessorRegister : Obligations.CoprocessorRegister := by
  unfold Obligations.CoprocessorRegister
  intro c op1 o1 crn crd rd crm cp o2 d more rest s offers hr kept
  let u := s.answered rest
  refine ⟨?_, ?_, ?_⟩
  · obtain ⟨sequence, regs, flags, bytes, control, spsrs, plat, lines, replies, sent⟩ := onlyAdvanced_advance u
    exact ⟨_, exec_cdp_accepted offers hr op1 crn crd crm o2,
      ⟨⟨control, spsrs, plat, lines⟩, replies, bytes, sequence⟩, regs, flags, sent⟩
  · by_cases hd : rd = 15
    · subst hd
      obtain ⟨outside, replies, bytes, sequence, regs, flags, sent⟩ :=
        coprocSent_frame cp [Config.sentPc s.draws] 15 none u.drawn
      exact ⟨_, _, exec_mcr_accepted_pc offers hr o1 crn crm o2, ⟨outside, replies, bytes, sequence⟩, regs, flags, sent,
        fun other => absurd rfl other⟩
    · obtain ⟨outside, replies, bytes, sequence, regs, flags, sent⟩ := coprocSent_frame cp [s.readReg rd] rd none u
      exact ⟨_, _, exec_mcr_accepted offers hr o1 crn crm o2 hd, ⟨outside, replies, bytes, sequence⟩, regs, flags, sent,
        fun _ => rfl⟩
  · by_cases hd : rd = 15
    · subst hd
      obtain ⟨regs, bytes, spsrs, ⟨plat, lines, replies, sent⟩, sequence⟩ :=
        advance_withCpsr_frame u (q := s.cpsr.withFlagField d) rfl
      exact ⟨_, exec_mrc_accepted_pc offers hr o1 crn crm o2,
        ⟨⟨⟨rfl, rfl, rfl, rfl, rfl⟩, spsrs, plat, lines⟩, replies, bytes, sequence⟩, sent, fun other => absurd rfl other,
        fun _ => ⟨regs, rfl, rfl, rfl, rfl⟩⟩
    · obtain ⟨value, regs, bytes, ⟨control, spsrs, plat, lines, replies, sent⟩, sequence⟩ :=
        advance_writeReg_frame hd u (q := s.cpsr) d ⟨rfl, rfl, rfl, rfl, rfl⟩
      exact ⟨_, exec_mrc_accepted offers hr o1 crn crm o2 hd, ⟨⟨control, spsrs, plat, lines⟩, replies, bytes, sequence⟩,
        sent, fun _ => ⟨value, regs, flagsKept_writeReg u rd d⟩, fun pc => absurd pc hd⟩

/-! ## LDC and STC (R254, R255) -/

/-- A base written back and then advanced past reads as its new value. -/
theorem readReg_writtenBack_advance {rn : Reg} (hr : rn ≠ 15) (s : State) (v : Word) :
    (s.writtenBack rn (some v)).advance.readReg rn = v := by
  rw [State.readReg_advance hr]
  exact State.readReg_writeReg_same hr s v

theorem exec_ldc_granted {c : Cond} {p u n w : Bool} {rn crd : Reg} {cp : BitVec 4} {off : BitVec 8} {first : Word}
    {more : List Word} {rest : List CoprocReply} {s : State} (offers : offersTo c cp s)
    (hr : s.replies = .accept first more :: rest) (hw : w = true → rn ≠ 15) (form : p = true ∨ w = true ∨ u = true)
    (granted : blockGranted .read (coprocAddress p u (s.readReg rn) off) (more.length + 1) (s.answered rest)) :
    exec (.ldc c p u n w rn crd cp off) s =
      .next (coprocSent cp (s.wordsAt (coprocAddress p u (s.readReg rn) off) (more.length + 1)) rn
        (if w then some (coprocBase u (s.readReg rn) off) else none) (s.answered rest)).advance := by
  change execLdc c p u n w rn crd cp off s = _
  rw [execLdc, coprocTransferRefusal_eq_none hw form, offered_accepted offers hr]
  simp only [coprocAddressOf_eq, State.readReg_answered, readWords_granted granted, State.wordsAt_answered]
  rfl

/-- Settles O54: the base is written after the words have been moved. -/
theorem coprocessorTransfer : Obligations.CoprocessorTransfer := by
  unfold Obligations.CoprocessorTransfer
  intro c p u n w rn crd cp off first more rest s offers hr hw form bound base a count kept
  let wb := if w then some (coprocBase u base off) else none
  refine ⟨fun granted => ?_, fun granted hs => ?_⟩
  · obtain ⟨outside, replies, bytes, ⟨follows, nothing⟩, regs, flags, sent⟩ :=
      coprocSent_frame cp (s.wordsAt a count) rn wb (s.answered rest)
    rw [isSome_ite] at regs
    refine ⟨_, exec_ldc_granted offers hr hw form granted, ⟨outside, replies, flags, follows, fun writes => ?_, regs⟩,
      bytes, nothing, ?_⟩
    · rw [if_pos writes]
      exact readReg_writtenBack_advance (hw writes) _ _
    · rw [State.wordsAt, List.map_map] at sent
      exact sent
  · have run := (exec_stc_accepted (n := n) (crd := crd) (off := off) offers hr hw form).trans
      (storeBlock_granted rn wb (s := s.answered rest) granted)
    obtain ⟨regs, follows, flags, control, spsrs, plat, lines, replies, sent⟩ :=
      blockStored_frame rn a (first :: more) wb (s.answered rest)
    rw [isSome_ite] at regs
    refine ⟨_, run, ⟨⟨control, spsrs, plat, lines⟩, replies, flags, follows, fun writes => ?_, regs⟩, sent, ?_⟩
    · simp only [wb, if_pos writes]
      exact readReg_writtenBack_advance (hw writes) _ _
    · have short : (first :: more).length ≤ 2 ^ 30 := by simpa using bound
      exact blockInMemory_of_mem (s := s.answered rest) hs short (by simp [blockStored_eq, a, base])
        (by simp [blockStored_eq]) granted (by simp [blockStored_eq, a, base])

end Sys2Proof.Machine
end

section
/-! SUPPORT. The Thumb instructions of formats 1 to 5, 12 and 13 (47_thumb_alu.md R265 to R305): the data-processing
operation each one is, and the sums and moves that write a register and no flag. -/

namespace Sys2Proof.Machine

/-! ## Formats 1 to 4 (R265 to R295) -/

/-- A move has no first operand: its effect is the same whatever stands there. -/
theorem dataEffect_moves {op : AluOp} (h : op.moves = true) {f : Bool} {rd : Reg} {a : Word} {o : Shifted} {s t : State}
    (effect : dataEffect op f rd a o s t) (b : Word) : dataEffect op f rd b o s t := by
  cases op with
  | mov | mvn => exact effect
  | and | eor | sub | rsb | add | adc | sbc | rsc | tst | teq | cmp | cmn | orr | bic => cases h

/-- Each is the operation of its ARM equivalent on low registers; a move alone may have another first operand. -/
theorem exec_thumbDataForm {i : Instr} {s : State} {op : AluOp} {rd : LowReg} {a : Word} {o : Shifted}
    (h : thumbDataForm i s = some (op, rd, a, o)) :
    ∃ rn, exec i s = thumbData op rn rd o s ∧ (op.moves = true ∨ a = s.readReg (lowReg rn)) := by
  unfold thumbDataForm at h
  split at h
  case h_27 => cases h
  all_goals cases h
  case h_1 | h_2 | h_3 | h_8 | h_14 | h_15 | h_16 | h_19 | h_26 => exact ⟨_, rfl, .inl rfl⟩
  all_goals exact ⟨_, rfl, .inr rfl⟩

/-- Settles O55: a low register is never r15, so the data-processing instruction has its effect in full. -/
theorem thumbDataEffect : Obligations.ThumbData := by
  unfold Obligations.ThumbData
  intro i s op rd a o form
  obtain ⟨rn, run, operand⟩ := exec_thumbDataForm form
  obtain ⟨t, next, effect⟩ := dataProcess_effect (op := op) (.inr (lowReg_ne_pc rd)) true (lowReg rn) o s
  refine ⟨t, run.trans next, ?_⟩
  obtain moves | rfl := operand
  · exact dataEffect_moves moves effect a
  · exact effect

/-! ## A register written, no flag changed -/

theorem wroteOnly_advance_writeReg {rd : Reg} (hd : rd ≠ 15) (v : Word) (s : State) :
    wroteOnly rd v s (s.writeReg rd v).advance := by
  obtain ⟨value, regs, bytes, rest, sequence⟩ :=
    advance_writeReg_frame hd s (q := s.cpsr) v ⟨rfl, rfl, rfl, rfl, rfl⟩
  exact ⟨sequence, value, regs, flagsKept_writeReg s rd v, bytes, rest⟩

/-! ## Format 5 (R296 to R299) -/

theorem getLsbD_three_eq (r : Reg) : r.getLsbD 3 = decide (8 ≤ r.toNat) := by
  revert r; decide

theorem bothLowRefusal_of_high {d src : Reg} (h : 8 ≤ d.toNat ∨ 8 ≤ src.toNat) : bothLowRefusal d src = none := by
  rw [bothLowRefusal, getLsbD_three_eq, getLsbD_three_eq]
  exact if_neg (by simpa [imp_iff_not_or] using h)

theorem bothLowRefusal_of_low {d src : Reg} (hd : d.toNat < 8) (hs : src.toNat < 8) :
    bothLowRefusal d src = some .bothLow := by
  rw [bothLowRefusal, getLsbD_three_eq, getLsbD_three_eq]
  exact if_pos (by simpa using ⟨hd, hs⟩)

theorem exec_tAddHi (d src : Reg) (s : State) :
    exec (.tAddHi d src) s =
      guarded (bothLowRefusal d src) (.next (thumbWriteHigh d (s.readReg d + s.readReg src) s)) := rfl

theorem exec_tMovHi (d src : Reg) (s : State) :
    exec (.tMovHi d src) s = guarded (bothLowRefusal d src) (.next (thumbWriteHigh d (s.readReg src) s)) := rfl

/-- A compare has no destination: d may stand for it. -/
theorem exec_tCmpHi (d src : Reg) (s : State) :
    exec (.tCmpHi d src) s = guarded (bothLowRefusal d src) (guarded (pcRefusal [d])
      (dataProcess .cmp true d d ⟨s.readReg src, none⟩ s)) := rfl

theorem wroteOnly_thumbWriteHigh {d : Reg} (hd : d ≠ 15) (v : Word) (s : State) :
    wroteOnly d v s (thumbWriteHigh d v s) := by
  rw [thumbWriteHigh, if_neg hd]
  exact wroteOnly_advance_writeReg hd v s

theorem jumped_thumbWriteHigh (v : Word) (s : State) : jumped (lowOneCleared v) s (thumbWriteHigh 15 v s) := by
  rw [thumbWriteHigh, if_pos rfl, halfAligned_eq_lowOneCleared]
  exact jumped_branchTo _ s

/-- With a high register and d not r15. -/
theorem format5_writes {d src : Reg} (high : 8 ≤ d.toNat ∨ 8 ≤ src.toNat) (hd : d ≠ 15) (s : State) :
    (∃ t, exec (.tAddHi d src) s = .next t ∧ wroteOnly d (s.readReg d + s.readReg src) s t) ∧
    (∃ t, exec (.tMovHi d src) s = .next t ∧ wroteOnly d (s.readReg src) s t) ∧
    ∃ t, exec (.tCmpHi d src) s = .next t ∧ dataEffect .cmp true d (s.readReg d) ⟨s.readReg src, none⟩ s t := by
  rw [exec_tAddHi, exec_tMovHi, exec_tCmpHi, bothLowRefusal_of_high high, pcRefusal_singleton hd]
  exact ⟨⟨_, rfl, wroteOnly_thumbWriteHigh hd _ s⟩, ⟨_, rfl, wroteOnly_thumbWriteHigh hd _ s⟩,
    dataProcess_effect (op := .cmp) (.inr hd) true d ⟨s.readReg src, none⟩ s⟩

/-- With d = 15, which is a high register. -/
theorem format5_pc (src : Reg) (s : State) :
    (∃ t, exec (.tAddHi 15 src) s = .next t ∧ jumped (lowOneCleared (s.readReg 15 + s.readReg src)) s t) ∧
    (∃ t, exec (.tMovHi 15 src) s = .next t ∧ jumped (lowOneCleared (s.readReg src)) s t) ∧
    exec (.tCmpHi 15 src) s = .refused .pcOperand := by
  have high : bothLowRefusal 15 src = none := bothLowRefusal_of_high (.inl (by decide))
  rw [exec_tAddHi, exec_tMovHi, exec_tCmpHi, high, pcRefusal_of_mem (List.mem_singleton_self 15)]
  exact ⟨⟨_, rfl, jumped_thumbWriteHigh _ s⟩, ⟨_, rfl, jumped_thumbWriteHigh _ s⟩, rfl⟩

theorem format5_bothLow {d src : Reg} (hd : d.toNat < 8) (hs : src.toNat < 8) (s : State) :
    exec (.tAddHi d src) s = .refused .bothLow ∧ exec (.tMovHi d src) s = .refused .bothLow ∧
      exec (.tCmpHi d src) s = .refused .bothLow := by
  rw [exec_tAddHi, exec_tMovHi, exec_tCmpHi, bothLowRefusal_of_low hd hs]
  exact ⟨rfl, rfl, rfl⟩

/-! ## Formats 12 and 13 (R302 to R305) -/

theorem exec_tAddPc (rd : LowReg) (off : BitVec 8) (s : State) :
    exec (.tAddPc rd off) s =
      .next (s.writeReg (lowReg rd) (lowTwoCleared (s.readReg 15) + off.setWidth 32 * 4)).advance := by
  rw [State.readReg_pc, ← wordAligned_eq_lowTwoCleared, ← shiftLeft_two_eq_mul]
  rfl

theorem exec_tAddSp (rd : LowReg) (off : BitVec 8) (s : State) :
    exec (.tAddSp rd off) s = .next (s.writeReg (lowReg rd) (s.readReg 13 + off.setWidth 32 * 4)).advance := by
  rw [← shiftLeft_two_eq_mul]
  rfl

theorem exec_tSpUp (off : BitVec 7) (s : State) :
    exec (.tSpUp off) s = .next (s.writeReg 13 (s.readReg 13 + off.setWidth 32 * 4)).advance := by
  rw [← shiftLeft_two_eq_mul]
  rfl

theorem exec_tSpDown (off : BitVec 7) (s : State) :
    exec (.tSpDown off) s = .next (s.writeReg 13 (s.readReg 13 - off.setWidth 32 * 4)).advance := by
  rw [← shiftLeft_two_eq_mul]
  rfl

/-- Settles O56: format 5 goes by its registers; the others write a register that is not r15. -/
theorem thumbHighAndSp : Obligations.ThumbHighAndSp := by
  unfold Obligations.ThumbHighAndSp
  intro d src rd off off7 s gives jumps
  refine ⟨fun high => ⟨fun hd => format5_writes high hd s, ?_⟩, fun hd hs => format5_bothLow hd hs s, ?_, ?_, ?_, ?_⟩
  · rintro rfl
    exact format5_pc src s
  · exact ⟨_, exec_tAddPc rd off s, wroteOnly_advance_writeReg (lowReg_ne_pc rd) _ s⟩
  · exact ⟨_, exec_tAddSp rd off s, wroteOnly_advance_writeReg (lowReg_ne_pc rd) _ s⟩
  · exact ⟨_, exec_tSpUp off7 s, wroteOnly_advance_writeReg stack_ne_pc _ s⟩
  · exact ⟨_, exec_tSpDown off7 s, wroteOnly_advance_writeReg stack_ne_pc _ s⟩

end Sys2Proof.Machine
end

section
/-! SUPPORT. The Thumb branches (49_thumb_branch.md R340 to R347): conditional, unconditional, and the two halves of BL,
one after the other. -/

namespace Sys2Proof.Machine

/-! ## Conditional branches (R341) -/

/-- There is one for each condition but "always". -/
theorem exec_tBcond {c : Cond} {off : BitVec 8} {i : Instr} (h : Instr.tBcond c off = some i) (s : State) :
    exec i s = thumbBranchIf c off s := by
  unfold Instr.tBcond at h
  split at h
  case h_15 => cases h
  all_goals
    cases h
    rfl

theorem thumbBranchIf_taken {c : Cond} {s : State} (hc : condHolds c s.cpsr = true) (off : BitVec 8) :
    thumbBranchIf c off s = .next (s.branchTo (s.cur + 4 + off.signExtend 32 * 2)) := by
  rw [← shiftLeft_one_eq_mul]
  exact if_pos hc

theorem thumbBranchIf_not_taken {c : Cond} {s : State} (hc : condHolds c s.cpsr = false) (off : BitVec 8) :
    thumbBranchIf c off s = .next s.advance := if_neg (by simp [hc])

/-! ## B and the halves of BL (R344, R346, R347) -/

theorem exec_tB (off : BitVec 11) (s : State) :
    exec (.tB off) s = .next (s.branchTo (s.cur + 4 + off.signExtend 32 * 2)) := by
  rw [← shiftLeft_one_eq_mul]
  rfl

theorem exec_tBlPrefix (off : BitVec 11) (s : State) :
    exec (.tBlPrefix off) s = .next (s.writeReg 14 (s.cur + 4 + off.signExtend 32 * 4096)).advance := by
  have scaled : off.signExtend 32 <<< 12 = off.signExtend 32 * 4096 := BitVec.shiftLeft_eq_mul_twoPow _ 12
  rw [← scaled]
  rfl

theorem exec_tBlSuffix (off : BitVec 11) (s : State) :
    exec (.tBlSuffix off) s = .next ((s.writeReg 14 ((s.cur + 2) ||| 1)).branchTo
      (lowOneCleared (s.readReg 14 + off.setWidth 32 * 2))) := by
  rw [← shiftLeft_one_eq_mul, ← halfAligned_eq_lowOneCleared]
  rfl

theorem link_ne_pc : (14 : Reg) ≠ 15 := by decide

/-- A register written and a branch after it: what is left of the state before. -/
theorem branchTo_writeReg_frame {r : Reg} (hr : r ≠ 15) (v a : Word) (s : State) :
    let t := (s.writeReg r v).branchTo a
    wentTo a t ∧ t.readReg r = v ∧ regsKeptBut [regIndex s.mode r] s t ∧ flagsKept s t ∧ bytesKept s t ∧
      restKept s t := by
  refine ⟨wentTo_branchTo a _, ?_, fun k hk => ?_, flagsKept_writeReg s r v, bytesKept_writeReg s r v,
    restKept_writeReg s r v⟩
  · rw [State.readReg_branchTo hr, State.readReg_writeReg_same hr]
  · exact State.regs_writeReg_of_ne s v (by simpa using hk)

/-- Settles O59: each is a branch, an advance, or the write of r14 and one of them. -/
theorem thumbBranches : Obligations.ThumbBranches := by
  unfold Obligations.ThumbBranches
  refine ⟨fun c off i s form => ?_, fun off s => ⟨?_, ?_, ?_⟩⟩
  · rw [exec_tBcond form]
    exact ⟨fun hc => ⟨_, thumbBranchIf_taken hc off, jumped_branchTo _ s⟩,
      fun hc => ⟨_, thumbBranchIf_not_taken hc off, onlyAdvanced_advance s⟩⟩
  · exact ⟨_, exec_tB off s, jumped_branchTo _ s⟩
  · exact ⟨_, exec_tBlPrefix off s, wroteOnly_advance_writeReg link_ne_pc _ s⟩
  · exact ⟨_, exec_tBlSuffix off s, branchTo_writeReg_frame link_ne_pc _ _ s⟩

/-! ## The two halves together (R345) -/

theorem flagsKept.trans {s t u : State} (h : flagsKept s t) (h' : flagsKept t u) : flagsKept s u := by
  simp_all [flagsKept]

theorem lowOneCleared_of_even {a : Word} (h : a.toNat % 2 = 0) : lowOneCleared a = a :=
  BitVec.eq_of_toNat_eq <| by
    rw [lowOneCleared, BitVec.toNat_ofNat, Nat.mod_eq_of_lt (by have := a.isLt; omega)]
    omega

/-- From an even address both offsets lead to an even one: clearing bit 0 there does nothing. -/
theorem longBranch_target_even {a : Word} (h : a.toNat % 2 = 0) (hi lo : Word) :
    (a + 4 + hi * 4096 + lo * 2).toNat % 2 = 0 := by
  simp only [BitVec.toNat_add, BitVec.toNat_mul, BitVec.reduceToNat]
  omega

/-- Settles O60: the second half goes on from what the first has left in r14, two bytes further on. -/
theorem thumbLongBranch : Obligations.ThumbLongBranch := by
  unfold Obligations.ThumbLongBranch
  intro hi lo s thumb even
  obtain ⟨-, ⟨t, runFirst, ⟨⟨⟨cur, -⟩, -⟩, -⟩, link, regs, flags, bytes, rest⟩, -⟩ := thumbBranches.2 hi s
  obtain ⟨-, -, u, runSecond, went, link', regs', flags', bytes', rest'⟩ := thumbBranches.2 lo t
  have mode : t.mode = s.mode := mode_of_controlKept rest.1
  have next : t.cur + 2 = s.cur + 4 := by
    rw [cur, thumb, BitVec.add_assoc]
    rfl
  rw [link, lowOneCleared_of_even (longBranch_target_even even _ _)] at went
  rw [next] at link'
  rw [mode] at regs'
  refine ⟨t, u, runFirst, runSecond, went, link', fun k hk => ?_, flags.trans flags', bytes.trans bytes',
    rest.trans rest'⟩
  exact (regs' k hk).trans (regs k hk)

end Sys2Proof.Machine
end

section
/-! SUPPORT. PUSH, POP, STMIA and LDMIA (48_thumb_load_store.md R330 to R334) as block transfers with write-back. -/

namespace Sys2Proof.Machine

/-! ## What they refuse -/

theorem emptyRefusal_of_nil {rs : List Reg} (h : rs = []) : emptyRefusal rs = some .emptyList := by
  rw [h]
  rfl

theorem not_isEmpty_of_ne_nil {rs : List Reg} (h : rs ≠ []) : ¬ rs.isEmpty = true := by
  simpa using h

theorem exec_tStmia_baseInList {rb : LowReg} {list : BitVec 8} (h : lowReg rb ∈ registersOf (list.setWidth 16))
    (first : (registersOf (list.setWidth 16)).head? ≠ some (lowReg rb)) (s : State) :
    exec (.tStmia rb list) s = .refused .baseInList :=
  (congrArg (guarded · _) (emptyRefusal_eq_none (not_isEmpty_of_ne_nil (List.ne_nil_of_mem h)))).trans
    (congrArg (guarded · _) (storeBaseRefusal_of_mem h first))

/-! ## Stores (R330, R333) -/

/-- A granted block store with write-back, always executed: memory, the base, and what is left of the state before. -/
theorem writeBackStore_effect {i : Instr} {s : State} {m : Mode} {rn : Reg} {rs : List Reg} {start v : Word}
    {vs : List Word} (form : blockForm i s = some ⟨.al, false, false, rn, m, rs, start, some v, vs⟩)
    (hs : s.mem.wf = true) (granted : blockGranted .write start rs.length s) :
    ∃ t, exec i s = .next t ∧ blockInMemory vs start s t ∧ t.readReg rn = v ∧
      regsKeptBut [regIndex s.mode rn] s t ∧ flagsKept s t ∧ restKept s t ∧ followsOnPlain s t := by
  have d := blockForm_describes form
  have length : vs.length = rs.length := d.values rfl
  rw [← length] at granted
  have short : vs.length ≤ 2 ^ 30 := by
    rw [length]
    exact d.up.length_le.trans (by norm_num)
  obtain ⟨regs, follows, flags, rest⟩ := blockStored_frame rn start vs (some v) s
  refine ⟨_, (d.exec rfl).trans (storeBlock_granted rn (some v) granted), ?_, ?_, regs, flags, rest, follows⟩
  · exact blockInMemory_of_mem hs short (by simp [blockStored_eq]) (by simp [blockStored_eq]) granted
      (by simp [blockStored_eq])
  · exact readReg_writtenBack_advance d.base _ v

/-- Settles O57: PUSH and STMIA are block stores whose base is written after memory. -/
theorem thumbBlockStores : Obligations.ThumbBlockStores := by
  unfold Obligations.ThumbBlockStores
  intro lr rb list s hs kept
  refine ⟨⟨fun nil => ?_, fun hrs granted => ?_⟩, fun nil => ?_, fun base first => ?_, fun hrs first granted => ?_⟩
  · exact congrArg (guarded · _) (emptyRefusal_of_nil nil)
  · exact writeBackStore_effect (i := .tPush lr list) (if_neg (not_isEmpty_of_ne_nil hrs)) hs granted
  · exact congrArg (guarded · _) (emptyRefusal_of_nil nil)
  · exact exec_tStmia_baseInList base first s
  · have apart : ¬ ((registersOf (list.setWidth 16)).contains (lowReg rb) &&
        (registersOf (list.setWidth 16)).head? != some (lowReg rb)) = true := by simpa using first
    exact writeBackStore_effect (i := .tStmia rb list)
      ((if_neg apart).trans (if_neg (not_isEmpty_of_ne_nil hrs))) hs granted

/-! ## Loads (R331, R334) -/

/-- The state in which a load that `finishPop` ends goes on. -/
def afterPop (pc : Option Word) (s : State) : State :=
  match pc with
  | some v => s.branchTo (halfAligned v)
  | none => s.advance

theorem finishPop_eq (pc : Option Word) (s : State) : finishPop pc s = .next (afterPop pc s) := by
  cases pc <;> rfl

/-- Besides registers and the pc, it changes nothing. -/
theorem afterPop_frame (pc : Option Word) (s : State) (regs : Vector Word 30) :
    let t := afterPop pc { s with regs := regs }
    t.regs = regs ∧ flagsKept s t ∧ bytesKept s t ∧ restKept s t := by
  cases pc <;> exact ⟨rfl, ⟨rfl, rfl, rfl, rfl⟩, fun _ => rfl, ⟨rfl, rfl, rfl, rfl, rfl⟩, ⟨rfl, rfl, rfl, rfl, rfl⟩,
    ⟨rfl, rfl, rfl, rfl⟩⟩

/-- A granted block load with write-back, always executed and ended by `finishPop`: the registers, the base unless it is
loaded, the pc, and what is left of the state before. -/
theorem writeBackLoad_effect {i : Instr} {s : State} {rn : Reg} {rs : List Reg} {start v : Word}
    (form : blockForm i s = some ⟨.al, true, false, rn, s.mode, rs, start, some v, []⟩) (ends : loadEnd i = finishPop)
    (granted : blockGranted .read start rs.length s) :
    ∃ t, exec i s = .next t ∧ blockInRegs s.mode rs start s t ∧ (rn ∉ rs → t.readReg rn = v) ∧
      (if 15 ∈ rs then wentTo (lowOneCleared (s.readWord (blockAddress start (rs.length - 1)))) t else inSequence s t) ∧
      regsKeptBut (placesOf s.mode rs ++ [regIndex s.mode rn]) s t ∧ flagsKept s t ∧ bytesKept s t ∧ restKept s t := by
  let b : Block := ⟨.al, true, false, rn, s.mode, rs, start, some v, []⟩
  have d : b.Describes i s := blockForm_describes form
  have run : exec i s = .next (afterPop (b.loadsPc s) (b.loaded s)) := by
    refine (d.exec rfl).trans ((d.run_load rfl granted _).trans ?_)
    rw [ends, finishPop_eq]
    rfl
  obtain ⟨same, flags, bytes, rest⟩ := afterPop_frame (b.loadsPc s) s (b.loaded s).regs
  have mode : (afterPop (b.loadsPc s) (b.loaded s)).mode = s.mode := mode_of_controlKept rest.1
  have same : (afterPop (b.loadsPc s) (b.loaded s)).regs = (b.loaded s).regs := same
  refine ⟨_, run, ?_, fun apart => ?_, ?_, ?_, flags, bytes, rest⟩
  · have loaded : blockInRegs b.bank b.rs b.start s (b.loaded s) := d.blockInRegs_loaded
    rwa [blockInRegs, ← same] at loaded
  · have base := d.base_loaded rfl (regIndex_notMem_placesOf s.mode d.base apart)
    rw [← same] at base
    rw [State.readReg_regs d.base]
    simpa only [mode] using base
  · split
    · rename_i pc
      rw [Block.loadsPc, if_pos pc, ← halfAligned_eq_lowOneCleared]
      exact wentTo_branchTo _ _
    · rename_i pc
      rw [Block.loadsPc, if_neg pc]
      exact inSequence_advance rfl rfl rfl rfl
  · have kept := b.regsKeptBut_loaded s
    rwa [regsKeptBut, ← same] at kept

/-- A Thumb list names r0 to r7 alone. -/
theorem notMem_shortList {r : Reg} (hr : 8 ≤ r.toNat) (list : BitVec 8) : r ∉ registersOf (list.setWidth 16) := by
  simp [mem_registersOf, BitVec.getLsbD_of_ge list r.toNat hr]

/-- Settles O58: POP and LDMIA are block loads whose base is written before the registers. -/
theorem thumbBlockLoads : Obligations.ThumbBlockLoads := by
  unfold Obligations.ThumbBlockLoads
  intro pc rb list s kept
  refine ⟨⟨fun nil => ?_, fun hrs granted => ?_⟩, fun nil => ?_, fun hrs granted => ?_⟩
  · exact congrArg (guarded · _) (emptyRefusal_of_nil nil)
  · obtain ⟨t, run, loaded, base, goesOn, frame⟩ :=
      writeBackLoad_effect (i := .tPop pc list) (if_neg (not_isEmpty_of_ne_nil hrs)) rfl granted
    have noStack : 13 ∉ registersOf (list.setWidth 16) := notMem_shortList (by decide) list
    have noPc : 15 ∉ registersOf (list.setWidth 16) := notMem_shortList (by decide) list
    refine ⟨t, run, loaded, base ?_, ?_, frame⟩
    · cases pc <;> simpa using noStack
    · cases pc with
      | true => rwa [if_pos (by simp)] at goesOn
      | false => rwa [if_neg (by simpa using noPc)] at goesOn
  · exact congrArg (guarded · _) (emptyRefusal_of_nil nil)
  · obtain ⟨t, run, loaded, base, goesOn, frame⟩ :=
      writeBackLoad_effect (i := .tLdmia rb list) (if_neg (not_isEmpty_of_ne_nil hrs)) rfl granted
    rw [if_neg (notMem_shortList (by decide) list)] at goesOn
    exact ⟨t, run, loaded, base, goesOn, frame⟩

end Sys2Proof.Machine
end

section
/-! SUPPORT. The step before its instruction (60_exceptions.md R370, R372, 70_reset_and_hazards.md R400), the entry of
each exception (R356 to R369) and the return from it (R375, R376). -/

namespace Sys2Proof.Machine

/-! ## The step (R372) -/

/-- Outside the prefetch window no draw is counted. -/
theorem State.started_outside {s : State} (h : s.inWindow = false) : s.started = s := if_neg (by simp [h])

/-- Settles O5: undisturbed, a step is the instruction that memory holds at `cur`. -/
theorem stepRunsDecodedInstruction : Obligations.StepRunsDecodedInstruction := by
  unfold Obligations.StepRunsDecodedInstruction
  intro s i hs hw hi clear
  have outside : (startOf s).inWindow = false := hw
  have fetched : decode (startOf s).fetched = .ok i := by rwa [fetched_startOf, State.fetchMemory_outside hw]
  rw [← touchesBanked_startOf] at clear
  rw [step_undisturbed hs, runInstruction_exec fetched clear, State.started_outside outside]

/-- The step in the order of R372. -/
theorem step_eq (s : State) :
    step s =
      if s.linesNow.reset then .next (takeReset s.linesSampled)
      else if modeOfBits s.cpsr.m = none then .fault .illegalMode
      else if s.pastTop then .refused .pastTop
      else if s.linesNow.fiq && !s.cpsr.f then .next (takeFiq s.linesSampled)
      else if s.linesNow.irq && !s.cpsr.i then .next (takeIrq s.linesSampled)
      else fetchAndRun s.linesSampled := rfl

theorem step_reset {s : State} (h : s.linesNow.reset = true) : step s = .next (takeReset s.linesSampled) := if_pos h

theorem fetchAndRun_aborted {s : State} (h : s.access .fetch s.privilege s.cur s.size = .aborted) :
    fetchAndRun s = .next (takePrefetchAbort s) := by
  rw [fetchAndRun, h]

theorem fetchAndRun_unmapped {s : State} (h : s.access .fetch s.privilege s.cur s.size = .unmapped) :
    fetchAndRun s = .fault .unmapped := by
  rw [fetchAndRun, h]

/-- Settles O7: each premise decides one test of the step, in their order. -/
theorem stepTakesExceptionsInOrder : Obligations.StepTakesExceptionsInOrder := by
  unfold Obligations.StepTakesExceptionsInOrder
  intro s t
  refine ⟨step_reset, fun reset => ?_⟩
  rw [step_eq, if_neg (by simp [reset])]
  refine ⟨fun illegal => if_pos illegal, fun legal past => ?_, fun legal inside => ?_⟩
  · rw [if_neg legal, if_pos past]
  rw [if_neg legal, if_neg (by simp [inside])]
  refine ⟨fun fiq => if_pos (by simp [fiq]), fun noFiq => ?_⟩
  rw [if_neg (by simpa using noFiq)]
  refine ⟨fun irq => if_pos (by simp [irq]), fun noIrq => ?_⟩
  rw [if_neg (by simpa using noIrq)]
  exact ⟨fetchAndRun_aborted (s := t), fetchAndRun_unmapped (s := t)⟩

/-- Settles O14: a reset is the entry of its exception, but for the SPSR of Supervisor mode. -/
theorem resetLineEffect : Obligations.ResetLineEffect := by
  unfold Obligations.ResetLineEffect
  intro s reset
  refine ⟨_, step_reset reset, ?_⟩
  obtain ⟨cur, fetch, cpsr, -, spsrs, -, regs, bytes, plat, lines, replies, sent⟩ :=
    entered_enterException .reset (Config.resetLink s.draws) s.linesSampled
  refine ⟨?_, ⟨cur, fetch, rfl⟩, regs, fun m hm => ?_, bytes, plat, lines, replies, sent⟩
  · refine cpsr.trans ?_
    simp [Exception.masksFiq, Exception.mode, Mode.bits]
  · calc (takeReset s.linesSampled).spsrOf m
      _ = (enterException .reset (Config.resetLink s.draws) s.linesSampled).spsrOf m :=
        State.spsrOf_setSpsrOf_of_ne { enterException .reset _ s.linesSampled with draws := _ } hm (psrOfWord _)
      _ = s.spsrOf m := spsrs m hm

/-! ## The entries (R356 to R369) -/

/-- The mark of a User-bank transfer, which it keeps, is no part of what an entry is known by. -/
theorem entered_interrupted (e : Exception) (s : State) :
    entered e.mode e.mode.bits e.vector e.masksFiq (s.cur + 4) s (interrupted e s) :=
  entered_enterException e (s.cur + 4) s

/-- Settles O15: each is the entry of its exception with its return value. -/
theorem exceptionEntries : Obligations.ExceptionEntries := by
  unfold Obligations.ExceptionEntries
  intro s next
  rw [takeUndefined_eq, takeSwi_eq]
  exact ⟨entered_enterException .undefined next s, entered_enterException .swi next s,
    entered_interrupted .prefetchAbort s, entered_enterException .dataAbort _ s, entered_interrupted .irq s,
    entered_interrupted .fiq s⟩

/-! ## The return (R376, 41 R149) -/

theorem exceptionReturn_noSpsr {s : State} (h : s.mode = .usr ∨ s.mode = .sys) (a : Word) :
    exceptionReturn a s = .refused .noSpsr := by
  rw [exceptionReturn, State.spsrOf_eq_none h]

/-- A target that the restored T allows: the status restored and the branch. -/
theorem exceptionReturn_completes {p : Psr} {s : State} (hp : s.spsrOf s.mode = some p) (legal : modeOfBits p.m ≠ none)
    {a : Word} (ha : p.t = true ∨ a.toNat % 4 = 0) :
    exceptionReturn a s = .next ((s.withCpsr p).branchTo (if p.t then lowOneCleared a else a)) := by
  cases thumb : p.t with
  | true => rw [exceptionReturn_thumb hp a legal thumb, if_pos rfl, halfAligned_eq_lowOneCleared]
  | false =>
    have aligned : a.toNat % 4 = 0 := ha.resolve_left (by simp [thumb])
    rw [exceptionReturn_arm hp a legal thumb, jumpExact_aligned aligned, if_neg nofun]

/-- Settles O16: the SPSR is looked for, then its mode, then the target. -/
theorem exceptionReturnEffect : Obligations.ExceptionReturnEffect := by
  unfold Obligations.ExceptionReturnEffect
  intro a s
  refine ⟨fun h => exceptionReturn_noSpsr h a, fun p hp => ⟨exceptionReturn_illegal hp a, fun legal arm ha => ?_,
    fun legal ha => ?_⟩⟩
  · rw [exceptionReturn_arm hp a legal arm, jumpExact_misaligned ha]
  · exact ⟨_, exceptionReturn_completes hp legal ha, rfl, wentTo_branchTo _ _, fun _ _ => rfl,
      ⟨rfl, rfl, rfl, rfl, rfl⟩, fun _ => rfl, rfl, rfl, rfl, rfl⟩

/-! ## The return instructions (R361, R375) -/

theorem entered.mode {m : Mode} {vector ret : Word} {f : Bool} {s u : State} (h : entered m m.bits vector f ret s u) :
    u.mode = m := by
  obtain ⟨-, -, cpsr, -⟩ := h
  rw [State.mode, cpsr]
  simp

/-- r14 of the mode entered reads as the return value. -/
theorem entered.readReg_link {m : Mode} {vector ret : Word} {f : Bool} {s u : State}
    (h : entered m m.bits vector f ret s u) : u.readReg 14 = ret := by
  have mode := h.mode
  obtain ⟨-, -, -, -, -, link, -⟩ := h
  rw [State.readReg_regs link_ne_pc]
  simpa only [mode] using link

/-- An instruction that returns right after the entry, to an address aligned for the state left. -/
theorem entered.resumes {m : Mode} {vector ret a : Word} {f : Bool} {s u : State} {i : Instr}
    (h : entered m m.bits vector f ret s u) (legal : modeOfBits s.cpsr.m ≠ none)
    (aligned : alignedFor s.cpsr.t a = true) (run : exec i u = exceptionReturn a u) :
    ∃ t, exec i u = .next t ∧ t.cpsr = s.cpsr ∧ wentTo a t ∧ regsKeptBut [regIndex m 14] s t ∧ bytesKept s t := by
  have mode := h.mode
  obtain ⟨-, -, -, spsr, -, -, regs, bytes, -⟩ := h
  rw [← mode] at spsr
  rw [alignedFor_iff] at aligned
  have target : (if s.cpsr.t then lowOneCleared a else a) = a := by
    split
    · rename_i thumb
      exact lowOneCleared_of_even (by simpa [thumb] using aligned)
    · rfl
  have allowed : s.cpsr.t = true ∨ a.toNat % 4 = 0 := by
    cases thumb : s.cpsr.t with
    | true => exact .inl rfl
    | false => exact .inr (by simpa [thumb] using aligned)
  obtain ⟨-, returns⟩ := exceptionReturnEffect a u
  obtain ⟨-, -, completes⟩ := returns _ spsr
  obtain ⟨t, next, cpsr, went, regs', -, bytes', -⟩ := completes legal allowed
  rw [target] at went
  exact ⟨t, run.trans next, cpsr, went, fun k hk => (regs' k nofun).trans (regs k hk), bytes.trans bytes'⟩

/-- MOVS pc, r14. -/
theorem exec_movs_pc (u : State) : exec (.movShImm .al true 15 0 .lsl 14) u = exceptionReturn (u.readReg 14) u :=
  dataPcReturn _ .mov .al 0 _ u rfl rfl (.inr ⟨0, .lsl, 14, rfl, rfl⟩)

/-- SUBS pc, r14, #n. -/
theorem exec_subs_pc (n : BitVec 8) (u : State) :
    exec (.subImm .al true 14 15 0 n) u = exceptionReturn (u.readReg 14 - n.setWidth 32) u := by
  have unrotated : (n.setWidth 32 : Word) = (n.setWidth 32).rotateRight (2 * (0 : BitVec 4).toNat) := by
    simp [BitVec.rotateRight_def]
  exact dataPcReturn _ .sub .al 14 ⟨n.setWidth 32, none⟩ u rfl rfl (.inl ⟨0, n, rfl, unrotated⟩)

theorem entered.movs_resumes {m : Mode} {vector ret : Word} {f : Bool} {s u : State}
    (h : entered m m.bits vector f ret s u) (legal : modeOfBits s.cpsr.m ≠ none)
    (aligned : alignedFor s.cpsr.t ret = true) :
    ∃ t, exec (.movShImm .al true 15 0 .lsl 14) u = .next t ∧ t.cpsr = s.cpsr ∧ wentTo ret t ∧
      regsKeptBut [regIndex m 14] s t ∧ bytesKept s t :=
  h.resumes legal aligned ((exec_movs_pc u).trans (by rw [h.readReg_link]))

theorem entered.subs_resumes {m : Mode} {vector a : Word} {f : Bool} {s u : State} {n : BitVec 8}
    (h : entered m m.bits vector f (a + n.setWidth 32) s u) (legal : modeOfBits s.cpsr.m ≠ none)
    (aligned : alignedFor s.cpsr.t a = true) :
    ∃ t, exec (.subImm .al true 14 15 0 n) u = .next t ∧ t.cpsr = s.cpsr ∧ wentTo a t ∧
      regsKeptBut [regIndex m 14] s t ∧ bytesKept s t :=
  h.resumes legal aligned ((exec_subs_pc n u).trans (by rw [h.readReg_link, BitVec.add_sub_cancel]))

/-- Settles O17: the SPSR of the mode entered is the CPSR left, and r14 less what the instruction takes off it is
aligned for the state left, as the pc was. -/
theorem returnInstructionsResume : Obligations.ReturnInstructionsResume := by
  unfold Obligations.ReturnInstructionsResume
  intro s safe movs subs resumes following
  obtain ⟨legal, aligned, -⟩ := s.inv_iff.1 safe
  rw [State.aligned_eq] at aligned
  have aligned' : alignedFor s.cpsr.t following = true := by
    have sum := alignedFor_add aligned (alignedFor_size s)
    rwa [ofNat_size] at sum
  obtain ⟨undefined, swi, prefetchAbort, dataAbort, irq, fiq⟩ := exceptionEntries s
  exact ⟨entered.movs_resumes (m := .svc) swi legal aligned', entered.movs_resumes (m := .und) undefined legal aligned',
    entered.subs_resumes (m := .abt) (n := 4) prefetchAbort legal aligned,
    entered.subs_resumes (m := .irq) (n := 4) irq legal aligned,
    entered.subs_resumes (m := .fiq) (n := 4) fiq legal aligned,
    entered.subs_resumes (m := .abt) (n := 8) dataAbort legal aligned⟩

end Sys2Proof.Machine
end
